-- ==== Sys2Proof/Word.lean ====
section
/-! DEFINITION. The word types of the block (00_scope.md section 5: all values are unsigned). -/

namespace Sys2Proof

/-- One frame byte. -/
abbrev Byte := BitVec 8

/-- A channel or mode ordinal as the ports carry it (R45, R50). -/
abbrev Nibble := BitVec 4

/-- A string is its list of characters (00_scope.md section 5). -/
abbrev Text := List Char

end Sys2Proof
end

