-- ==== Sys2Proof/Syntax.lean ====
section
/-! DEFINITION. The instructions: the five rows of opcode_table.json. -/

namespace Sys2Proof

/-- A command, as the host writes it (R62, R63).
Channel and mode are 4 bits wide (R50); the strength is an unsigned natural that the block reduces modulo 256 (R49, D4). -/
inductive Instr where
  /-- `SHOCK channel, strength` (R71). -/
  | shock (channel : Nibble) (strength : Nat)
  /-- `VIBRATE channel, strength` (R72). -/
  | vibrate (channel : Nibble) (strength : Nat)
  /-- `BEEP channel, strength` (R73). -/
  | beep (channel : Nibble) (strength : Nat)
  /-- `ENC channel, mode, strength` (R70). -/
  | enc (channel mode : Nibble) (strength : Nat)
  /-- `TRANSMIT strength` (R63). -/
  | transmit (strength : Nat)
  deriving DecidableEq, Repr

end Sys2Proof
end

