-- ==== Sys2Proof/Machine/Operands.lean ====
section
/-! DEFINITION. Operand forms: ordinals of channels and modes (R47, R48) and the three operands of each command (R45, R49, R50, R62, R63). -/

namespace Sys2Proof.Machine

/-- `CH01 = 0` (R47). -/
def ch01 : Nibble := 0
/-- `CH02 = 1` (R47; the name is the spec's own). -/
def ch02 : Nibble := 1
/-- `CH03 = 2` (R47; the name is the spec's own). -/
def ch03 : Nibble := 2

/-- `Shock = 1` (R48). -/
def modeShock : Nibble := 1
/-- `Vibrate = 2` (R48). -/
def modeVibrate : Nibble := 2
/-- `Beep = 3` (R48). -/
def modeBeep : Nibble := 3

/-- Modes 1, 2 and 3 are the defined ones; 0 and 4 to 15 are reserved (R48, R52). -/
def modeDefined (md : Nibble) : Bool :=
  md == modeShock || md == modeVibrate || md == modeBeep

/-- Channels 0, 1 and 2 are the defined ones; 3 to 15 are reserved (R47, R53). -/
def channelDefined (ch : Nibble) : Bool :=
  ch == ch01 || ch == ch02 || ch == ch03

end Sys2Proof.Machine

namespace Sys2Proof

/-- The channel operand; `TRANSMIT` fixes it to `CH01` (R63). -/
def Instr.channel : Instr → Nibble
  | .shock ch _ => ch
  | .vibrate ch _ => ch
  | .beep ch _ => ch
  | .enc ch _ _ => ch
  | .transmit _ => Machine.ch01

/-- The mode operand: the opcode (R48, R51, R63). -/
def Instr.mode : Instr → Nibble
  | .shock _ _ => Machine.modeShock
  | .vibrate _ _ => Machine.modeVibrate
  | .beep _ _ => Machine.modeBeep
  | .enc _ md _ => md
  | .transmit _ => Machine.modeShock

/-- The strength operand, not yet reduced (R49). -/
def Instr.strength : Instr → Nat
  | .shock _ st => st
  | .vibrate _ st => st
  | .beep _ st => st
  | .enc _ _ st => st
  | .transmit st => st

end Sys2Proof
end

