-- ==== Sys2Proof/Machine/Packing.lean ====
section
/-! DEFINITION. Level F, steps 1 to 3 of the encoder algorithm (41_packing.md) and the frame record. -/

namespace Sys2Proof.Machine

/-- `DEVICE_ID` (R3). -/
def deviceId : BitVec 16 := 0xDDC8

/-- Byte 0, the high byte of the identifier (R80). -/
def idHi : Byte := deviceId.extractLsb' 8 8

/-- Byte 1, the low byte of the identifier (R80). -/
def idLo : Byte := deviceId.extractLsb' 0 8

/-- Byte 2: channel in the upper nibble, mode in the lower (R81). -/
def packNibbles (ch md : Nibble) : Byte := ch ++ md

/-- Byte 3: the strength reduced modulo 256 (R82, R49). -/
def strengthByte (st : Nat) : Byte := BitVec.ofNat 8 st

/-- The command word `CMD16 = {channel, mode, strength[7:0]}` (R45). -/
def cmd16 (ch md : Nibble) (st : Nat) : BitVec 16 := packNibbles ch md ++ strengthByte st

/-- `CH = F[2][7:4]` (R12). -/
def channelField (b2 : Byte) : Nibble := b2.extractLsb' 4 4

/-- `MD = F[2][3:0]` (R12). -/
def modeField (b2 : Byte) : Nibble := b2.extractLsb' 0 4

/-- The five bytes of a frame, byte 0 first (R4, R31, R46). -/
structure Frame where
  b0 : Byte
  b1 : Byte
  b2 : Byte
  b3 : Byte
  b4 : Byte
  deriving DecidableEq, Repr

/-- `F[i]` for i in 0 to 4 (R30).
The rules form no other index; the model answers 0 there (log 11). -/
def Frame.byte (f : Frame) (i : Nat) : Byte :=
  match i with
  | 0 => f.b0
  | 1 => f.b1
  | 2 => f.b2
  | 3 => f.b3
  | 4 => f.b4
  | _ => 0

/-- The frame as a list, in the order it is sent (R31). -/
def Frame.bytes (f : Frame) : List Byte := [f.b0, f.b1, f.b2, f.b3, f.b4]

/-- `word40(f)`: byte 0 in bits 39:32 down to byte 4 in bits 7:0 (R15). -/
def Frame.word40 (f : Frame) : BitVec 40 := f.b0 ++ f.b1 ++ f.b2 ++ f.b3 ++ f.b4

/-- The frame whose 40-bit word is `w`: the inverse of `word40` (R15). -/
def Frame.ofWord (w : BitVec 40) : Frame :=
  { b0 := w.extractLsb' 32 8, b1 := w.extractLsb' 24 8, b2 := w.extractLsb' 16 8,
    b3 := w.extractLsb' 8 8, b4 := w.extractLsb' 0 8 }

/-- `fbit(f, i)`: bit `7 - (i mod 8)` of byte `i div 8` (R32). -/
def Frame.fbit (f : Frame) (i : Nat) : Bool := (f.byte (i / 8)).getLsbD (7 - i % 8)

end Sys2Proof.Machine
end

