-- ==== Sys2Proof/Machine/Checksum.lean ====
section
/-! DEFINITION. Level F, step 4: the sum modulo 256 (42_checksum.md), and the whole frame of a command (40_commands.md R70). -/

namespace Sys2Proof.Machine

/-- `csum`: the exact sum of the four bytes over the naturals, then reduced modulo 256 (R90). -/
def csum (b0 b1 b2 b3 : Byte) : Byte :=
  BitVec.ofNat 8 (b0.toNat + b1.toNat + b2.toNat + b3.toNat)

/-- The frame that has these bytes 2 and 3: the identifier is fixed and the checksum recomputed (R14, R80, R95). -/
def frameOf (b2 b3 : Byte) : Frame :=
  { b0 := idHi, b1 := idLo, b2 := b2, b3 := b3, b4 := csum idHi idLo b2 b3 }

/-- `frame(channel, mode, strength)`, steps 1 to 4 (R70). -/
def frame (ch md : Nibble) (st : Nat) : Frame :=
  frameOf (packNibbles ch md) (strengthByte st)

/-- A 40-bit word is a frame this encoder can produce when its identifier and its checksum are right (R59). -/
def recognised (w : BitVec 40) : Bool :=
  let f := Frame.ofWord w
  f.b0 == idHi && f.b1 == idLo && f.b4 == csum f.b0 f.b1 f.b2 f.b3

end Sys2Proof.Machine
end

