-- ==== Sys2Proof/Config.lean ====
section
/-! DEFINITION. The open parameters of rule R7 (00_scope.md), one record. Nothing in the step reads them. -/

namespace Sys2Proof

/-- The six parameters that rule R7 marks OPEN.
They are an argument of every definition that reads one, so a claim holds for every value of them (log 5). -/
structure Config where
  /-- `STRENGTH_W`, the width of `cmd_strength` (R7, D4). -/
  strengthW : Nat
  /-- `PROTOCOL_NAME` (R7, R114, D13). -/
  protocolName : Text
  /-- `RAW_TAG` (R7, R114, D13). -/
  rawTag : Text
  /-- `PREAMBLE` (R7, R111, D13). -/
  preamble : Text
  /-- `POSTAMBLE` (R7, R111, D13). -/
  postamble : Text
  /-- `UNITS_PER_CHAR` (R7, R112, D13). -/
  unitsPerChar : Nat
  deriving DecidableEq, Repr

end Sys2Proof
end

