-- ==== Sys2Proof/WellFormed.lean ====
section
/-! DEFINITION. Well-formed commands. Channel and mode fit their ports by their type (R50); what is left to check is the strength. -/

namespace Sys2Proof

/-- The strength fits the `STRENGTH_W`-bit port (R45, R62: "a numeral 0 to `2^STRENGTH_W - 1`"). -/
def Instr.strengthFits (c : Config) (i : Instr) : Bool :=
  decide (i.strength < 2 ^ c.strengthW)

/-- A command the host can present on ports of this configuration. -/
def Instr.wellFormed (c : Config) (i : Instr) : Bool :=
  i.strengthFits c

/-- The strength is one the 8-bit frame field can hold unreduced (R54), so that the frame determines the whole command. -/
def Instr.strengthIsByte (i : Instr) : Bool :=
  decide (i.strength < 256)

/-- The operands are all among the values the source calls defined or meaningful (R47, R48, R54): what a host should present (R169).
Nothing in the block checks it (R75). -/
def Instr.meaningful (i : Instr) : Bool :=
  Machine.channelDefined i.channel && Machine.modeDefined i.mode && decide (i.strength ≤ 99)

end Sys2Proof
end

