-- ==== Sys2Proof/Decode.lean ====
section
/-! DEFINITION. The inverse of the encoding, total on any bytes and rejecting by name (R51, R59), then the encoder of instructions.
The block itself encodes and never decodes a frame (R51); what it reads from its command port is decoded by `decodeCommand`. -/

namespace Sys2Proof

open Sys2Proof.Machine

/-- Why a byte sequence is no frame of this encoder (R59, R61). -/
inductive DecodeError where
  /-- Not exactly five bytes (R4, R61). -/
  | wrongLength
  /-- Bytes 0 and 1 are not 0xDD, 0xC8 (R59, R60). -/
  | wrongIdentifier
  /-- Byte 4 is not the checksum of bytes 0 to 3 (R59, R60). -/
  | wrongChecksum
  deriving DecidableEq, Repr

/-- The opcode map (R51): the mode selects the command; a reserved mode is the raw form ENC (R52). -/
def decodeCommand (ch md : Nibble) (st : Nat) : Instr :=
  if md = modeShock then .shock ch st
  else if md = modeVibrate then .vibrate ch st
  else if md = modeBeep then .beep ch st
  else .enc ch md st

/-- The command of a 16-bit command word (R45, R51). -/
def decodeCmd16 (w : BitVec 16) : Instr :=
  decodeCommand (w.extractLsb' 12 4) (w.extractLsb' 8 4) (w.extractLsb' 0 8).toNat

/-- The command whose frame is these bytes, byte 0 first (R51, R59). -/
def decode (bytes : List Byte) : Except DecodeError Instr :=
  match bytes with
  | [b0, b1, b2, b3, b4] =>
    if b0 = idHi ∧ b1 = idLo then
      if b4 = csum b0 b1 b2 b3 then .ok (decodeCommand (channelField b2) (modeField b2) b3.toNat)
      else .error .wrongChecksum
    else .error .wrongIdentifier
  | _ => .error .wrongLength

/-- The 40-bit frame word of a command (R46). -/
def encodeWord (i : Instr) : BitVec 40 := (frame i.channel i.mode i.strength).word40

/-- The frame bytes of a command, in the order they are sent (R46, R70). -/
def encode (i : Instr) : List Byte := (frame i.channel i.mode i.strength).bytes

/-- The name a command has after decoding: the defined modes have their mnemonics, `TRANSMIT s` is `SHOCK CH01, s`
(R62, R63), and the strength is the frame's byte (R59, log 8). -/
def Instr.canonical (i : Instr) : Instr :=
  decodeCommand i.channel i.mode (i.strength % 256)

/-- One row of opcode_table.json: on the frame word and on the command word (R51). -/
structure OpRow where
  mask : BitVec 40
  pattern : BitVec 40
  cmdMask : BitVec 16
  cmdPattern : BitVec 16
  deriving DecidableEq, Repr

/-- The row SHOCK (R51, R71). -/
def rowShock : OpRow := ⟨0xFFFF0F0000, 0xDDC8010000, 0x0F00, 0x0100⟩
/-- The row VIBRATE (R51, R72). -/
def rowVibrate : OpRow := ⟨0xFFFF0F0000, 0xDDC8020000, 0x0F00, 0x0200⟩
/-- The row BEEP (R51, R73). -/
def rowBeep : OpRow := ⟨0xFFFF0F0000, 0xDDC8030000, 0x0F00, 0x0300⟩
/-- The generic row ENC, which overlaps the three commands on purpose (R51). -/
def rowEnc : OpRow := ⟨0xFFFF000000, 0xDDC8000000, 0x0000, 0x0000⟩
/-- The pseudo row TRANSMIT, which lies inside SHOCK (R51, R63). -/
def rowTransmit : OpRow := ⟨0xFFFFFF0000, 0xDDC8010000, 0xFF00, 0x0100⟩

/-- The frame word matches the row. -/
def OpRow.hits (r : OpRow) (w : BitVec 40) : Bool := w &&& r.mask == r.pattern

/-- The command word matches the row. -/
def OpRow.hitsCmd (r : OpRow) (w : BitVec 16) : Bool := w &&& r.cmdMask == r.cmdPattern

/-- The bytes the hardware holds for a 40-bit table word: bytes 0 to 3 as the word has them, and byte 4 recomputed,
since nothing can supply a checksum (R14, R60, R95, log 7). -/
def tableWordBytes (w : BitVec 40) : List Byte :=
  let f := Frame.ofWord w
  [f.b0, f.b1, f.b2, f.b3, csum f.b0 f.b1 f.b2 f.b3]

/-- The instruction the decoder reads from a table word of `nbits` bits; bits above `nbits` are 0, and a word of more than 40 bits is none (R61, log 7). -/
def decodeTableWord (nbits w : Nat) : Option Instr :=
  let v := w % 2 ^ nbits
  if v < 2 ^ 40 then
    match decode (tableWordBytes (BitVec.ofNat 40 v)) with
    | .ok i => some i
    | .error _ => none
  else none

end Sys2Proof
end

