-- ==== Sys2Proof/Machine/State.lean ====
section
/-! DEFINITION. The state of the block (10_state.md) as plain data, the port samples that drive it, and the ways a step can end. -/

namespace Sys2Proof.Machine

/-- What a one-bit input port carries at a clock edge.
`unknown` stands for every value that is not a stable 0 or 1 (R170). -/
inductive Level where
  | low
  | high
  | unknown
  deriving DecidableEq, Repr

/-- What a port of several bits is offered at a clock edge: a number, or bits that are not all a stable 0 or 1 (R150, R170). -/
inductive Bus where
  | value (v : Nat)
  | unknown
  deriving DecidableEq, Repr

/-- The input ports other than `clk` (R21). -/
inductive Port where
  | rst
  | cmdValid
  | cmdChannel
  | cmdMode
  | cmdStrength
  | symReady
  deriving DecidableEq, Repr

/-- What the host and the consumer offer on the input ports at one clock edge, before the block's boundary has looked at it (R21, R150). -/
structure Drive where
  rst : Level
  cmdValid : Level
  cmdChannel : Bus
  cmdMode : Bus
  cmdStrength : Bus
  symReady : Level
  deriving DecidableEq, Repr

/-- The values of the input ports during a step: two-valued, channel and mode 4 bits wide (R21). -/
structure Inputs where
  rst : Bool
  cmdValid : Bool
  cmdChannel : Nibble
  cmdMode : Nibble
  cmdStrength : Nat
  symReady : Bool
  deriving DecidableEq, Repr

/-- The values of the output ports during a step (R22). -/
structure Outputs where
  cmdReady : Bool
  busy : Bool
  frame : BitVec 40
  frameValid : Bool
  symValid : Bool
  symData : Byte
  symLast : Bool
  deriving DecidableEq, Repr

/-- The machine. The first five fields are the whole of the architectural state (R10).
The last three are the model's own (log 1, log 2). -/
structure State where
  /-- `F[2]`, channel and mode of the last accepted command (R12). -/
  f2 : Byte
  /-- `F[3]`, the strength byte of the last accepted command (R13). -/
  f3 : Byte
  /-- `POS`, the position of the character offered next (R16). -/
  pos : BitVec 6
  /-- `BUSY` (R17). -/
  busy : Bool
  /-- `FVALID` (R18). -/
  fvalid : Bool
  /-- MODEL'S OWN: a RESET step has been taken; while false, the five items above may hold anything (R162, log 2). -/
  resetSeen : Bool
  /-- MODEL'S OWN: what the input ports carry in the coming steps, the next step first (R10, R21, log 1). -/
  script : List Drive
  /-- MODEL'S OWN: what the input ports carry in every step after `script` is used up (log 1). -/
  rest : Drive
  deriving DecidableEq, Repr

/-- The block has no fault (R140, R150), so there is no fault to name: the type is empty (log 10). -/
inductive Fault where
  deriving DecidableEq, Repr

/-- A run the spec says nothing of (R150). Every refusal is safe: the model stops where it has no rule. -/
inductive Refusal where
  /-- Raised by an arm of `exec` whose instruction has no meaning yet. Safe. No arm raises it now. -/
  | notModelled (mnemonic : String)
  /-- Raised at the boundary when an input port is not a stable 0 or 1 (R150, R170). Safe. -/
  | notTwoValued (port : Port)
  /-- Raised at the boundary when a channel above 15 is offered, which the 4-bit port cannot carry (R50, R150). Safe. -/
  | channelTooWide
  /-- Raised at the boundary when a mode above 15 is offered, which the 4-bit port cannot carry (R50, R150). Safe. -/
  | modeTooWide
  /-- Raised by every step but RESET before the first RESET, and by a command presented then (R150, R162). Safe. -/
  | beforeFirstReset
  deriving DecidableEq, Repr

/-- All inputs 0: no reset, no command, no character taken. -/
def Drive.idle : Drive :=
  { rst := .low, cmdValid := .low, cmdChannel := .value 0, cmdMode := .value 0,
    cmdStrength := .value 0, symReady := .low }

/-- The state right after a RESET step (R23, R160), with nothing scheduled on the ports (log 1). -/
def State.reset : State :=
  { f2 := 0x00, f3 := 0x00, pos := 0, busy := false, fvalid := false,
    resetSeen := true, script := [], rest := Drive.idle }

end Sys2Proof.Machine
end

