-- ==== Sys2Proof/Machine/Flags.lean ====
section
/-! DEFINITION. The two flags and the STATUS view (R17, R18, R19). No command computes a condition code (R18). -/

namespace Sys2Proof.Machine

/-- `STATUS = {FVALID, BUSY}`: bit 1 is `FVALID`, bit 0 is `BUSY` (R19). -/
def State.status (s : State) : BitVec 2 := BitVec.ofBool s.fvalid ++ BitVec.ofBool s.busy

/-- The flags of an accepted command: both set (R17, R18, R122). -/
def State.flagsAccepted (s : State) : State := { s with busy := true, fvalid := true }

/-- The flags after the last character: `BUSY` clear, `FVALID` kept (R17, R18, R123). -/
def State.flagsDone (s : State) : State := { s with busy := false }

/-- The flags after RESET: both clear (R17, R18, R121). -/
def State.flagsCleared (s : State) : State := { s with busy := false, fvalid := false }

end Sys2Proof.Machine
end

