-- ==== Sys2Proof/Machine/Mapper.lean ====
section
/-! DEFINITION. Level F, step 5: the bit-stream-to-symbol mapper (43_symbol_mapper.md), and its inverse (R108), which the block does not implement. -/

namespace Sys2Proof.Machine

/-- `SYM_ONE = 'E'` (R5). -/
def symOne : Char := 'E'
/-- `SYM_ZERO = '8'` (R5). -/
def symZero : Char := '8'
/-- `SEP = ' '` (R5). -/
def sep : Char := ' '

/-- `sym(b)` (R101). -/
def sym (b : Bool) : Char := if b then symOne else symZero

/-- The 40 bits in stream order (R100). -/
def frameBits (f : Frame) : List Bool := (List.range 40).map f.fbit

/-- The token of two bits: two symbols and one space (R56). -/
def token (first second : Bool) : Text := [sym first, sym second, sep]

/-- `payload(f)`: for k from 0 to 19, the symbols of bits 2k and 2k+1 and one space (R102, R104). -/
def payload (f : Frame) : Text :=
  (List.range 20).flatMap fun k => token (f.fbit (2 * k)) (f.fbit (2 * k + 1))

/-- `char_at(f, p)` (R103). -/
def charAt (f : Frame) (p : Nat) : Char :=
  if p % 3 = 2 then sep else sym (f.fbit (2 * (p / 3) + p % 3))

/-- The 8-bit ASCII code of a character (R57; the codes are general knowledge, K1, log 12). -/
def ascii (ch : Char) : Byte := BitVec.ofNat 8 ch.toNat

/-- The spec's `encode(channel, mode, strength) -> (Frame, SymbolStream)` (R1, R70). -/
def encodeCommand (ch md : Nibble) (st : Nat) : Frame × Text :=
  (frame ch md st, payload (frame ch md st))

/-- A symbol read back as a bit; any other character is none (R108). -/
def symBit (ch : Char) : Option Bool :=
  if ch = symOne then some true else if ch = symZero then some false else none

/-- The bits of a payload: each token of two symbols and a space gives two bits (R108). -/
def payloadBits : Text → Option (List Bool)
  | [] => some []
  | a :: b :: s :: rest =>
    match symBit a, symBit b, payloadBits rest with
    | some x, some y, some bits => if s = sep then some (x :: y :: bits) else none
    | _, _, _ => none
  | _ => none

/-- Bits, most significant first, as a number. -/
def bitsToNat (bits : List Bool) : Nat := bits.foldl (fun n b => 2 * n + b.toNat) 0

/-- The frame of a payload: 40 bits regrouped by eights, most significant first (R108). -/
def frameOfPayload (t : Text) : Option Frame :=
  match payloadBits t with
  | some bits =>
    if bits.length = 40 then some (Frame.ofWord (BitVec.ofNat 40 (bitsToNat bits))) else none
  | none => none

end Sys2Proof.Machine
end

