-- ==== Sys2Proof/Machine/Ports.lean ====
section
/-! DEFINITION. The frame byte file as it reads (R11, R14, R15), the output ports (R22), and the boundary where the input ports are sampled (R21, R150, R170). -/

namespace Sys2Proof.Machine

/-- The frame byte file: `F[0]`, `F[1]` hardwired, `F[4]` recomputed in every state (R11, R14). -/
def State.frame (s : State) : Frame := frameOf s.f2 s.f3

/-- `FRAME`, 40 bits (R15). -/
def State.frameWord (s : State) : BitVec 40 := s.frame.word40

/-- `DEVICE_ID` as it is visible, `frame[39:24]` (R19). -/
def State.deviceIdView (s : State) : BitVec 16 := s.frameWord.extractLsb' 24 16

/-- `cmd_ready = 1 - BUSY` (R22). -/
def State.cmdReady (s : State) : Bool := !s.busy

/-- `sym_valid = BUSY` (R22). -/
def State.symValid (s : State) : Bool := s.busy

/-- The character at the stream position (R16, R105). -/
def State.symChar (s : State) : Char := charAt s.frame s.pos.toNat

/-- `sym_data = ascii(char_at(F, POS))` (R22, R57). -/
def State.symData (s : State) : Byte := ascii s.symChar

/-- `sym_last`: 1 when `BUSY = 1` and `POS = 59` (R22). -/
def State.symLast (s : State) : Bool := s.busy && s.pos == 59

/-- All output ports, a function of the state alone (R22).
In a state with `resetSeen = false` they are as unspecified as the state is (R162, log 2). -/
def State.outputs (s : State) : Outputs :=
  { cmdReady := s.cmdReady, busy := s.busy, frame := s.frameWord, frameValid := s.fvalid,
    symValid := s.symValid, symData := s.symData, symLast := s.symLast }

/-- A one-bit port read at the boundary (R170). -/
def Level.read (p : Port) : Level → Except Refusal Bool
  | .low => .ok false
  | .high => .ok true
  | .unknown => .error (.notTwoValued p)

/-- A 4-bit port read at the boundary (R50, R150). -/
def Bus.readNibble (p : Port) (tooWide : Refusal) : Bus → Except Refusal Nibble
  | .value v => if v < 16 then .ok (BitVec.ofNat 4 v) else .error tooWide
  | .unknown => .error (.notTwoValued p)

/-- The strength port read at the boundary: an unbounded natural (D4, log 4). -/
def Bus.readStrength : Bus → Except Refusal Nat
  | .value v => .ok v
  | .unknown => .error (.notTwoValued .cmdStrength)

/-- The six input ports read at the boundary, in the order of rule R21 (R150, R170). -/
def Drive.sample (d : Drive) : Except Refusal Inputs := do
  let rst ← d.rst.read .rst
  let valid ← d.cmdValid.read .cmdValid
  let channel ← d.cmdChannel.readNibble .cmdChannel .channelTooWide
  let mode ← d.cmdMode.readNibble .cmdMode .modeTooWide
  let strength ← d.cmdStrength.readStrength
  let ready ← d.symReady.read .symReady
  return ⟨rst, valid, channel, mode, strength, ready⟩

/-- A two-valued level. -/
def Level.ofBool (b : Bool) : Level := if b then .high else .low

/-- Two-valued inputs as a host and a consumer put them on the ports. -/
def Inputs.drive (p : Inputs) : Drive :=
  { rst := Level.ofBool p.rst, cmdValid := Level.ofBool p.cmdValid,
    cmdChannel := .value p.cmdChannel.toNat, cmdMode := .value p.cmdMode.toNat,
    cmdStrength := .value p.cmdStrength, symReady := Level.ofBool p.symReady }

/-- What the ports carry in the coming step (log 1). -/
def State.drive (s : State) : Drive := s.script.headD s.rest

/-- The coming step's sample is used up (log 1). -/
def State.advance (s : State) : State := { s with script := s.script.tail }

/-- The inputs of the coming step, or why the run is outside the spec (R150): a port that is not two-valued or too narrow,
or a step other than RESET before the first RESET. -/
def State.inputs (s : State) : Except Refusal Inputs :=
  match s.drive.sample with
  | .ok p => if p.rst || s.resetSeen then .ok p else .error .beforeFirstReset
  | .error r => .error r

end Sys2Proof.Machine
end

