-- ==== Sys2Proof/Machine/Ops.lean ====
section
/-! DEFINITION. The state changes of the four kinds of step (R121 to R124) and the priority that chooses one (R120).
There is no exception to take and none to return from (R140, R145), and no memory (R30). -/

namespace Sys2Proof.Machine

/-- The four kinds of step (R120). -/
inductive StepKind where
  | reset
  | accept
  | emit
  | hold
  deriving DecidableEq, Repr

/-- The priority list of rule R120. -/
def stepKind (p : Inputs) (s : State) : StepKind :=
  if p.rst then .reset
  else if !s.busy && p.cmdValid then .accept
  else if s.busy && p.symReady then .emit
  else .hold

/-- RESET (R121, R23). -/
def resetBlock (s : State) : State :=
  { s.flagsCleared with f2 := 0x00, f3 := 0x00, pos := 0, resetSeen := true }

/-- ACCEPT: both frame byte registers written together, the position at the first character, both flags set (R122). -/
def acceptCommand (ch md : Nibble) (st : Nat) (s : State) : State :=
  { s.flagsAccepted with f2 := packNibbles ch md, f3 := strengthByte st, pos := 0 }

/-- EMIT: the next position, or from position 59 back to 0 with the block idle (R123). -/
def emitChar (s : State) : State :=
  if s.pos = 59 then { s.flagsDone with pos := 0 } else { s with pos := s.pos + 1 }

/-- HOLD changes nothing (R124). -/
def holdStep (s : State) : State := s

/-- A command at the command port, with `rst = 0` and `cmd_valid = 1`.
Accepted while idle (R122); while `BUSY = 1` it waits and changes nothing (R40, R126, log 9).
Before the first RESET no command may be presented (R150, R162). -/
def presentCommand (ch md : Nibble) (st : Nat) (s : State) : Host.Outcome State Fault Refusal :=
  if s.resetSeen then
    if s.busy then .next (holdStep s) else .next (acceptCommand ch md st s)
  else .refused .beforeFirstReset

/-- The inputs by which a host presents a command; the consumer takes nothing. -/
def presentInputs (ch md : Nibble) (st : Nat) : Inputs :=
  { rst := false, cmdValid := true, cmdChannel := ch, cmdMode := md, cmdStrength := st, symReady := false }

/-- The block idle and out of reset, with this command presented in the coming step, before whatever was scheduled (log 6). -/
def State.presenting (ch md : Nibble) (st : Nat) (s : State) : State :=
  { s with
    busy := false, pos := 0, resetSeen := true
    script := (presentInputs ch md st).drive :: s.script }

end Sys2Proof.Machine
end

