-- ==== Sys2Proof/Machine/Commands.lean ====
section
/-! DEFINITION. The meaning of each command at the command port (40_commands.md). The 60 characters are handed out by the EMIT steps that follow (R70, log 9). -/

namespace Sys2Proof.Machine

/-- `ENC channel, mode, strength` (R70): any mode, reserved ones included (R52). -/
def execEnc (ch md : Nibble) (st : Nat) (s : State) : Host.Outcome State Fault Refusal :=
  presentCommand ch md st s

/-- `SHOCK channel, strength` is `ENC channel, 1, strength` (R71). -/
def execShock (ch : Nibble) (st : Nat) (s : State) : Host.Outcome State Fault Refusal :=
  presentCommand ch modeShock st s

/-- `VIBRATE channel, strength` is `ENC channel, 2, strength` (R72). -/
def execVibrate (ch : Nibble) (st : Nat) (s : State) : Host.Outcome State Fault Refusal :=
  presentCommand ch modeVibrate st s

/-- `BEEP channel, strength` is `ENC channel, 3, strength` (R73). -/
def execBeep (ch : Nibble) (st : Nat) (s : State) : Host.Outcome State Fault Refusal :=
  presentCommand ch modeBeep st s

/-- `TRANSMIT strength` is `SHOCK CH01, strength` (R63). -/
def execTransmit (st : Nat) (s : State) : Host.Outcome State Fault Refusal :=
  presentCommand ch01 modeShock st s

end Sys2Proof.Machine
end

