-- ==== Sys2Proof/Machine/Dispatch.lean ====
section
/-! DEFINITION. One arm per row of opcode_table.json. -/

namespace Sys2Proof.Machine

def exec (i : Instr) (s : State) : Host.Outcome State Fault Refusal :=
  match i with
  | .shock ch st => Sys2Proof.Machine.execShock ch st s
  | .vibrate ch st => Sys2Proof.Machine.execVibrate ch st s
  | .beep ch st => Sys2Proof.Machine.execBeep ch st s
  | .enc ch md st => Sys2Proof.Machine.execEnc ch md st s
  | .transmit st => Sys2Proof.Machine.execTransmit st s

end Sys2Proof.Machine
end

