-- ==== Sys2Proof/Machine/Step.lean ====
section
/-! DEFINITION. One rising edge of `clk` (R120). -/

namespace Sys2Proof.Machine

/-- One step: the inputs are sampled, then exactly one of RESET, ACCEPT, EMIT and HOLD is done (R120).
ACCEPT is the command on the port, run by `exec`. -/
def step (s : State) : Host.Outcome State Fault Refusal :=
  match s.inputs with
  | .error r => .refused r
  | .ok p =>
    match stepKind p s with
    | .reset => .next (resetBlock s.advance)
    | .accept => exec (decodeCommand p.cmdChannel p.cmdMode p.cmdStrength) s.advance
    | .emit => .next (emitChar s.advance)
    | .hold => .next (holdStep s.advance)

/-- The block with this table word's command presented in the coming step (log 6, log 7).
A word the decoder refuses is no command, so nothing is presented. -/
def State.withFetchWord (s : State) (nbits w : Nat) : State :=
  match decodeTableWord nbits w with
  | some i => s.presenting i.channel i.mode i.strength
  | none => s

end Sys2Proof.Machine
end

