-- ==== Sys2Proof/Machine/Assembly.lean ====
section
/-! DEFINITION. The textual syntax of commands (R62, R63), as a parser and a printer. What the rules leave open about white space and digits is log 13. -/

namespace Sys2Proof.Machine

/-- A piece of a command line. -/
inductive Token where
  | word (cs : Text)
  | comma
  deriving DecidableEq, Repr

/-- A word collected in reverse, if any, before the tokens that follow. -/
def flushWord (acc : Text) (rest : List Token) : List Token :=
  match acc with
  | [] => rest
  | _ :: _ => .word acc.reverse :: rest

/-- Splits a line at spaces and commas; `acc` is the word being collected, in reverse. -/
def tokenize (acc : Text) : Text → List Token
  | [] => flushWord acc []
  | c :: cs =>
    if c = ' ' then flushWord acc (tokenize [] cs)
    else if c = ',' then flushWord acc (.comma :: tokenize [] cs)
    else tokenize (c :: acc) cs

/-- The value of a digit in a base of at most 16 (R62). -/
def digitValue (base : Nat) (c : Char) : Option Nat :=
  let n := c.toNat
  let v := if 48 ≤ n ∧ n ≤ 57 then n - 48
    else if 65 ≤ n ∧ n ≤ 70 then n - 55
    else if 97 ≤ n ∧ n ≤ 102 then n - 87
    else 16
  if v < base then some v else none

/-- Digits read after the value `acc`. -/
def digitsValue (base acc : Nat) : Text → Option Nat
  | [] => some acc
  | c :: cs =>
    match digitValue base c with
    | some v => digitsValue base (acc * base + v) cs
    | none => none

/-- A numeral: decimal, or hexadecimal after `0x` (R62). -/
def numeral (cs : Text) : Option Nat :=
  match cs with
  | [] => none
  | '0' :: 'x' :: c :: rest => digitsValue 16 0 (c :: rest)
  | c :: rest => digitsValue 10 0 (c :: rest)

/-- A numeral 0 to 15 (R62). -/
def nibbleNumeral (cs : Text) : Option Nibble :=
  match numeral cs with
  | some v => if v < 16 then some (BitVec.ofNat 4 v) else none
  | none => none

/-- `CH01`, `CH02`, `CH03` or a numeral 0 to 15 (R47, R62). -/
def channelOperand (cs : Text) : Option Nibble :=
  if cs = ['C', 'H', '0', '1'] then some ch01
  else if cs = ['C', 'H', '0', '2'] then some ch02
  else if cs = ['C', 'H', '0', '3'] then some ch03
  else nibbleNumeral cs

def nameShock : Text := ['S', 'H', 'O', 'C', 'K']
def nameVibrate : Text := ['V', 'I', 'B', 'R', 'A', 'T', 'E']
def nameBeep : Text := ['B', 'E', 'E', 'P']
def nameEnc : Text := ['E', 'N', 'C']
def nameTransmit : Text := ['T', 'R', 'A', 'N', 'S', 'M', 'I', 'T']

/-- A command of one channel and one strength (R62). -/
def namedCommand (name : Text) (ch : Nibble) (st : Nat) : Option Instr :=
  if name = nameShock then some (.shock ch st)
  else if name = nameVibrate then some (.vibrate ch st)
  else if name = nameBeep then some (.beep ch st)
  else none

/-- The command of a line's tokens (R62, R63). -/
def parseTokens (ts : List Token) : Option Instr :=
  match ts with
  | [.word name, .word st] =>
    match numeral st with
    | some st => if name = nameTransmit then some (.transmit st) else none
    | none => none
  | [.word name, .word ch, .comma, .word st] =>
    match channelOperand ch, numeral st with
    | some ch, some st => namedCommand name ch st
    | _, _ => none
  | [.word name, .word ch, .comma, .word md, .comma, .word st] =>
    match channelOperand ch, nibbleNumeral md, numeral st with
    | some ch, some md, some st => if name = nameEnc then some (.enc ch md st) else none
    | _, _, _ => none
  | _ => none

/-- The command a line stands for, if its strength fits the port (R62). -/
def parseLine (c : Config) (line : Text) : Option Instr :=
  match parseTokens (tokenize [] line) with
  | some i => if i.wellFormed c then some i else none
  | none => none

/-- A decimal numeral. -/
def decimal (n : Nat) : Text := Nat.toDigits 10 n

/-- A command as a line, its numbers in decimal (R62, R63). -/
def renderLine (i : Instr) : Text :=
  match i with
  | .shock ch st => nameShock ++ [' '] ++ decimal ch.toNat ++ [',', ' '] ++ decimal st
  | .vibrate ch st => nameVibrate ++ [' '] ++ decimal ch.toNat ++ [',', ' '] ++ decimal st
  | .beep ch st => nameBeep ++ [' '] ++ decimal ch.toNat ++ [',', ' '] ++ decimal st
  | .enc ch md st =>
    nameEnc ++ [' '] ++ decimal ch.toNat ++ [',', ' '] ++ decimal md.toNat ++ [',', ' '] ++ decimal st
  | .transmit st => nameTransmit ++ [' '] ++ decimal st

end Sys2Proof.Machine
end

