-- ==== Sys2Proof/Machine/Descriptor.lean ====
section
/-! DEFINITION. Level F, step 6: the raw-signal descriptor around the payload (44_descriptor.md). The block does not sequence it (R115). -/

namespace Sys2Proof.Machine

/-- `TOTAL_BITS` (R6, R112). -/
def totalBits : Nat := 256

/-- `TE_US`, the symbol duration in microseconds (R6, R113). -/
def teUs : Nat := 250

/-- The abstract record of rule R110. -/
structure Descriptor where
  protocol : Text
  bitCount : Nat
  teUs : Nat
  tag : Text
  data : Text
  deriving DecidableEq, Repr

/-- `descriptor(f)` under the open parameters `c` (R110, R111). -/
def descriptor (c : Config) (f : Frame) : Descriptor :=
  { protocol := c.protocolName, bitCount := totalBits, teUs := teUs, tag := c.rawTag,
    data := c.preamble ++ payload f ++ c.postamble }

/-- `units(s)`: `UNITS_PER_CHAR` times the number of non-space characters of `s` (R112). -/
def units (c : Config) (s : Text) : Nat :=
  c.unitsPerChar * (s.filter fun ch => ch != sep).length

/-- What the open parameters must satisfy: the strength width of rule R7 and the count of rule R112. -/
def configLegal (c : Config) : Bool :=
  decide (8 ≤ c.strengthW) &&
    decide (units c c.preamble + 40 * c.unitsPerChar + units c c.postamble = totalBits)

end Sys2Proof.Machine
end

