-- ==== Sys2Proof/Machine/Trace.lean ====
section
/-! DEFINITION. What host and consumer can observe of a run (R126, R127, R131). -/

namespace Sys2Proof.Machine

/-- A transferred character with its `sym_last` mark (R127, R131). -/
structure CharTransfer where
  char : Char
  last : Bool
  deriving DecidableEq, Repr

/-- A command taken from the port: the three values of the step in which it is taken (R126, R39). -/
structure CommandTransfer where
  channel : Nibble
  mode : Nibble
  strength : Nat
  deriving DecidableEq, Repr

/-- What can be observed of one step (R131). -/
structure Observation where
  accepted : Option CommandTransfer
  transferred : Option CharTransfer
  frame : BitVec 40
  frameValid : Bool
  busy : Bool
  deriving DecidableEq, Repr

/-- The character handed over in the coming step, if one is: `sym_valid = 1`, `sym_ready = 1` and `rst = 0` (R127). -/
def State.charTransfer (s : State) : Option CharTransfer :=
  match s.inputs with
  | .ok p => if s.symValid && p.symReady && !p.rst then some ⟨s.symChar, s.symLast⟩ else none
  | .error _ => none

/-- The command taken in the coming step, if one is: `cmd_valid = 1`, `cmd_ready = 1` and `rst = 0` (R126). -/
def State.commandTransfer (s : State) : Option CommandTransfer :=
  match s.inputs with
  | .ok p =>
    if p.cmdValid && s.cmdReady && !p.rst then some ⟨p.cmdChannel, p.cmdMode, p.cmdStrength⟩ else none
  | .error _ => none

/-- The observation of the coming step (R131). -/
def State.observe (s : State) : Observation :=
  { accepted := s.commandTransfer, transferred := s.charTransfer, frame := s.frameWord,
    frameValid := s.fvalid, busy := s.busy }

/-- `n` steps, stopping at the first that gives no next state. -/
def runSteps : Nat → State → Host.Outcome State Fault Refusal
  | 0, s => .next s
  | n + 1, s =>
    match step s with
    | .next s' => runSteps n s'
    | .fault r => .fault r
    | .refused r => .refused r

/-- The observations of the first `n` steps; a step that is refused ends the list (R131, R150). -/
def observations : Nat → State → List Observation
  | 0, _ => []
  | n + 1, s =>
    match step s with
    | .next s' => s.observe :: observations n s'
    | .fault _ => []
    | .refused _ => []

/-- The characters transferred in the first `n` steps, in order, with their marks (R128, R131). -/
def transfers (n : Nat) (s : State) : List CharTransfer :=
  (observations n s).filterMap Observation.transferred

/-- The commands accepted in the first `n` steps, in order (R131). -/
def commandsAccepted (n : Nat) (s : State) : List CommandTransfer :=
  (observations n s).filterMap Observation.accepted

/-- The payload of a frame as the symbol port hands it out: the last of the 60 characters is marked (R127, R128). -/
def markedPayload (f : Frame) : List CharTransfer :=
  (List.range 60).map fun p => ⟨charAt f p, p == 59⟩

/-- The state with these inputs on the ports in the coming steps, before whatever was scheduled (log 1). -/
def State.scheduled (s : State) (ps : List Inputs) : State :=
  { s with script := ps.map Inputs.drive ++ s.script }

/-- The next state of an outcome, if there is one. -/
def nextOf (o : Host.Outcome State Fault Refusal) : Option State :=
  match o with
  | .next s => some s
  | .fault _ => none
  | .refused _ => none

end Sys2Proof.Machine
end

