-- ==== Sys2Proof/Safety.lean ====
section
/-! DEFINITION. What counts as a sound state and a proper run, in the terms the claims use. -/

namespace Sys2Proof.Machine

/-- The invariants (a), (b), (c) of rule R24, and the reset pattern that the frame shows while `FVALID = 0` (R18).
They hold once a RESET step has been taken; R24 (d) holds by the views (R11, R14). -/
def State.Inv (s : State) : Prop :=
  s.resetSeen = true →
    s.pos.toNat ≤ 59 ∧ (s.busy = false → s.pos = 0) ∧ (s.busy = true → s.fvalid = true) ∧
      (s.fvalid = false → s.f2 = 0 ∧ s.f3 = 0)

/-- Out of reset and idle: a command can be accepted (R125). -/
def State.ready (s : State) : Prop := s.resetSeen = true ∧ s.busy = false

/-- Out of reset and streaming, at a position of the payload (R125). -/
def State.streaming (s : State) : Prop :=
  s.resetSeen = true ∧ s.busy = true ∧ s.pos.toNat ≤ 59

/-- No RESET in any of these steps. -/
def noReset (ps : List Inputs) : Prop := ∀ p ∈ ps, p.rst = false

/-- In how many of these steps the consumer is ready. -/
def readyCount (ps : List Inputs) : Nat := ps.countP fun p => p.symReady

/-- A stretch of a run that begins and ends idle (R131): one RESET step, one step with nothing to do,
or one accepted command with the steps up to its 60th character. -/
inductive Segment where
  /-- A RESET step, with these other inputs. -/
  | resetStep (p : Inputs)
  /-- A step in which no command is presented. -/
  | idleStep (p : Inputs)
  /-- The command of `p`, the steps `waiting` in which 59 characters are taken, and the step `final` that takes the 60th. -/
  | command (p : Inputs) (waiting : List Inputs) (final : Inputs)
  deriving DecidableEq, Repr

/-- The inputs of a segment, step by step. -/
def Segment.inputs : Segment → List Inputs
  | .resetStep p => [{ p with rst := true }]
  | .idleStep p => [{ p with rst := false, cmdValid := false }]
  | .command p waiting final => { p with rst := false, cmdValid := true } :: waiting ++ [final]

/-- The consumer takes 59 characters while waiting and the 60th at the end, and no RESET comes between (R131). -/
def Segment.complete : Segment → Prop
  | .resetStep _ => True
  | .idleStep _ => True
  | .command _ waiting final =>
    noReset waiting ∧ readyCount waiting = 59 ∧ final.rst = false ∧ final.symReady = true

/-- The characters a segment hands out: the payload of its command (R128). -/
def Segment.characters : Segment → List CharTransfer
  | .resetStep _ => []
  | .idleStep _ => []
  | .command p _ _ => markedPayload (Machine.frame p.cmdChannel p.cmdMode p.cmdStrength)

/-- The commands a segment accepts. -/
def Segment.commands : Segment → List CommandTransfer
  | .resetStep _ => []
  | .idleStep _ => []
  | .command p _ _ => [⟨p.cmdChannel, p.cmdMode, p.cmdStrength⟩]

/-- A step in which the consumer is ready and no command is presented. -/
def takeInputs : Inputs :=
  { rst := false, cmdValid := false, cmdChannel := 0, cmdMode := 0, cmdStrength := 0, symReady := true }

/-- The run of a list of commands with a host that presents each as soon as `cmd_ready = 1` and a consumer that is
always ready (R62, R127); it ends idle, right after the last command's 60th transfer (R132). -/
def programSegments (is : List Instr) : List Segment :=
  is.map fun i =>
    .command (presentInputs i.channel i.mode i.strength) (List.replicate 59 takeInputs) takeInputs

end Sys2Proof.Machine
end

