-- ==== Sys2Proof/Certificates/Slice0/Obligations.lean ====
section
/-! DEFINITION. The statements for the provers, file by file of spec/. -/

open Sys2Proof Sys2Proof.Machine

/-! ### 10_state.md -/

/-- R11: bytes 0 and 1 are hardwired, and no step writes them. -/
def Obligations.IdentifierBytesAreHardwired : Prop :=
  ∀ s : State,
    s.frame.b0 = 0xDD ∧ s.frame.b1 = 0xC8 ∧
    (s.frame.b0.toNat * 256 + s.frame.b1.toNat = 0xDDC8 ∧ s.deviceIdView = 0xDDC8) ∧
    ∀ s', step s = .next s' → s'.frame.b0 = s.frame.b0 ∧ s'.frame.b1 = s.frame.b1

/-- R14: byte 4 is the sum of the other four modulo 256, in every state. -/
def Obligations.ChecksumByteFollowsTheOtherFour : Prop :=
  ∀ s : State,
    s.frame.b4.toNat = (0xDD + 0xC8 + s.f2.toNat + s.f3.toNat) % 256 ∧
    s.frame.b4.toNat =
      (s.frame.b0.toNat + s.frame.b1.toNat + s.frame.b2.toNat + s.frame.b3.toNat) % 256

/-- From R15 and R19: where each byte stands in the 40-bit view, and the STATUS pair. -/
def Obligations.FrameViewAndStatusLayout : Prop :=
  ∀ s : State,
    s.frameWord.extractLsb' 32 8 = s.frame.b0 ∧ s.frameWord.extractLsb' 24 8 = s.frame.b1 ∧
    s.frameWord.extractLsb' 16 8 = s.f2 ∧ s.frameWord.extractLsb' 8 8 = s.f3 ∧
    s.frameWord.extractLsb' 0 8 = s.frame.b4 ∧
    s.outputs.frame = s.frameWord ∧
    s.status.getLsbD 1 = s.fvalid ∧ s.status.getLsbD 0 = s.busy

/-- R12 and R13: the fields of F[2], the only two kinds of step that write F[2] and F[3], and every value can be held. -/
def Obligations.FrameRegistersWrittenOnlyByAcceptAndReset : Prop :=
  (∀ s : State,
    (channelField s.f2).toNat = s.f2.toNat / 16 ∧ (modeField s.f2).toNat = s.f2.toNat % 16) ∧
  (∀ (s s' : State) (p : Inputs), s.inputs = .ok p → step s = .next s' →
    (p.rst = true → s'.f2 = 0 ∧ s'.f3 = 0) ∧
    (∀ c, s.commandTransfer = some c →
      s'.f2 = packNibbles c.channel c.mode ∧ s'.f3 = strengthByte c.strength) ∧
    (p.rst = false → s.commandTransfer = none → s'.f2 = s.f2 ∧ s'.f3 = s.f3)) ∧
  (∀ (s : State) (v w : Byte), s.ready →
    ∃ t, exec (.enc (channelField v) (modeField v) w.toNat) s = .next t ∧ t.f2 = v ∧ t.f3 = w)

/-- R16: everything that changes POS, and the values it can have. -/
def Obligations.PositionCounterRule : Prop :=
  State.reset.pos = 0 ∧
  ∀ (s s' : State) (p : Inputs), s.Inv → s.inputs = .ok p → step s = .next s' →
    s'.pos.toNat ≤ 59 ∧ (s'.busy = false → s'.pos = 0) ∧
    (p.rst = true → s'.pos = 0) ∧
    (s.commandTransfer.isSome → s'.pos = 0) ∧
    (s.charTransfer.isSome → s.pos.toNat ≠ 59 → s'.pos.toNat = s.pos.toNat + 1) ∧
    (s.charTransfer.isSome → s.pos.toNat = 59 → s'.pos = 0) ∧
    (p.rst = false → s.commandTransfer = none → s.charTransfer = none → s'.pos = s.pos)

/-- From R17: what sets and clears BUSY, and what it drives. The two states seen from outside are R125, an inference the
spec marks as its own. -/
def Obligations.BusyFlagAndItsTransitions : Prop :=
  State.reset.busy = false ∧
  (∀ s : State, s.Inv → s.resetSeen = true →
    s.outputs.busy = s.busy ∧
    (s.busy = false → s.outputs.cmdReady = true ∧ s.outputs.symValid = false ∧
      s.outputs.symLast = false ∧ s.pos = 0) ∧
    (s.busy = true → s.outputs.cmdReady = false ∧ s.outputs.symValid = true ∧ s.pos.toNat ≤ 59)) ∧
  ∀ (s s' : State) (p : Inputs), s.inputs = .ok p → step s = .next s' →
    (p.rst = true → s'.busy = false ∧ s'.fvalid = false) ∧
    (s.commandTransfer.isSome → s.busy = false ∧ s'.busy = true) ∧
    (s.charTransfer.isSome → s.pos = 59 → s.busy = true ∧ s'.busy = false) ∧
    (p.rst = false → s.commandTransfer = none → ¬(s.charTransfer.isSome ∧ s.pos = 59) →
      s'.busy = s.busy)

/-- R18: what sets and clears FVALID, and the pattern the frame shows while it is 0. -/
def Obligations.FrameValidFlagRule : Prop :=
  State.reset.fvalid = false ∧
  (∀ s : State, s.outputs.frameValid = s.fvalid) ∧
  (∀ s : State, s.Inv → s.resetSeen = true → s.fvalid = false → s.outputs.frame = 0xDDC80000A5) ∧
  ∀ (s s' : State) (p : Inputs), s.inputs = .ok p → step s = .next s' →
    (p.rst = true → s'.fvalid = false) ∧
    (s.commandTransfer.isSome → s'.fvalid = true) ∧
    (p.rst = false → s.commandTransfer = none → s'.fvalid = s.fvalid ∧ s'.frame = s.frame)

/-- From R22 and R57: the value of every output port, in every state, whatever the inputs. The numeric codes are log 12
(PRESUMED), and `sym_data` at POS 60 to 63, which no run reaches, is the model's choice (log 11). -/
def Obligations.OutputPortValues : Prop :=
  ∀ (s : State) (ps : List Inputs),
    (s.scheduled ps).outputs = s.outputs ∧
    s.outputs.cmdReady = !s.busy ∧ s.outputs.busy = s.busy ∧ s.outputs.frame = s.frame.word40 ∧
    s.outputs.frameValid = s.fvalid ∧ s.outputs.symValid = s.busy ∧
    s.outputs.symData =
      (if s.pos.toNat % 3 = 2 then 0x20
        else if s.frame.fbit (2 * (s.pos.toNat / 3) + s.pos.toNat % 3) then 0x45 else 0x38) ∧
    (s.outputs.symLast = true ↔ s.busy = true ∧ s.pos.toNat = 59)

/-- From R23 and R160: the state and the outputs after any RESET step, which are those of the reset state. -/
def Obligations.ResetTableAndViews : Prop :=
  (∀ (s : State) (p : Inputs), p.rst = true →
    ∃ t, step (s.scheduled [p]) = .next t ∧
      t.f2 = 0x00 ∧ t.f3 = 0x00 ∧ t.pos = 0 ∧ t.busy = false ∧ t.fvalid = false ∧
      t.frame.b0 = 0xDD ∧ t.frame.b1 = 0xC8 ∧ t.frame.b4 = 0xA5 ∧ t.status = 0 ∧
      t.outputs = ⟨true, false, 0xDDC80000A5, false, false, 0x45, false⟩) ∧
  State.reset.outputs = ⟨true, false, 0xDDC80000A5, false, false, 0x45, false⟩

/-- The invariant holds in the reset state. -/
def Obligations.ResetStateSatisfiesInvariant : Prop :=
  State.reset.Inv ∧ State.reset.ready

/-- From R24 and R18: every step from a state with the invariant leads to a state with the invariant;
and a RESET step leads there from any state. -/
def Obligations.InvariantKeptByEveryStep : Prop :=
  (∀ s s' : State, s.Inv → step s = .next s' → s'.Inv ∧ s'.resetSeen = true) ∧
  ∀ (s s' : State), s.drive.rst = .high → step s = .next s' → s'.Inv

/-- From R24 (an inference the spec marks as its own): in every state reachable from a RESET step by any steps, (a) to (e). -/
def Obligations.ReachableStatesAreSound : Prop :=
  ∀ (s t : State) (n : Nat), s.drive.rst = .high → runSteps (n + 1) s = .next t →
    t.pos.toNat ≤ 59 ∧
    (t.busy = false → t.pos = 0) ∧
    (t.busy = true → t.fvalid = true) ∧
    (t.frame.b4.toNat =
        (t.frame.b0.toNat + t.frame.b1.toNat + t.frame.b2.toNat + t.frame.b3.toNat) % 256 ∧
      t.frame.b0 = 0xDD ∧ t.frame.b1 = 0xC8) ∧
    ∀ t', t.busy = true → step t = .next t' → t.drive.rst = .low → t'.f2 = t.f2 ∧ t'.f3 = t.f3

/-- From R25: after a command is accepted, what is observed does not depend on the history before it. -/
def Obligations.EarlierHistoryDoesNotShow : Prop :=
  ∀ (s₁ s₂ : State) (p : Inputs) (ps : List Inputs), s₁.ready → s₂.ready →
    p.rst = false → p.cmdValid = true →
    ∃ t₁ t₂, step (s₁.scheduled (p :: ps)) = .next t₁ ∧ step (s₂.scheduled (p :: ps)) = .next t₂ ∧
      ∀ n, n ≤ ps.length → observations n t₁ = observations n t₂

/-! ### 20_memory.md and 30_encoding.md -/

/-- R32: the three forms of `fbit`, and the fields in stream order. -/
def Obligations.FrameBitOrder : Prop :=
  (∀ (f : Frame) (i : Nat), i < 40 →
    (f.fbit i).toNat = (f.byte (i / 8)).toNat / 2 ^ (7 - i % 8) % 2 ∧
    f.fbit i = (f.byte (i / 8)).getLsbD (7 - i % 8) ∧
    f.fbit i = f.word40.getLsbD (39 - i)) ∧
  ∀ (ch md : Nibble) (st j : Nat), let f := frame ch md st
    (j < 16 → f.fbit j = deviceId.getLsbD (15 - j)) ∧
    (j < 4 → f.fbit (16 + j) = ch.getLsbD (3 - j)) ∧
    (j < 4 → f.fbit (20 + j) = md.getLsbD (3 - j)) ∧
    (j < 8 → f.fbit (24 + j) = (BitVec.ofNat 8 (st % 256)).getLsbD (7 - j)) ∧
    (j < 8 → f.fbit (32 + j) = f.b4.getLsbD (7 - j))

/-- R39 and R40: in a step that transfers no command, the command inputs have no effect at all. -/
def Obligations.CommandInputsReadOnlyWhenAccepted : Prop :=
  ∀ (s : State) (p q : Inputs) (ps : List Inputs),
    (s.scheduled (p :: ps)).commandTransfer = none → (s.scheduled (q :: ps)).commandTransfer = none →
    p.rst = q.rst → p.symReady = q.symReady →
    step (s.scheduled (p :: ps)) = step (s.scheduled (q :: ps))

/-- R46 and R45: where each field stands in the frame word of a command, and the command word inside it. -/
def Obligations.FrameFieldLayout : Prop :=
  ∀ i : Instr,
    (encodeWord i).extractLsb' 24 16 = 0xDDC8 ∧
    (encodeWord i).extractLsb' 20 4 = i.channel ∧
    (encodeWord i).extractLsb' 16 4 = i.mode ∧
    ((encodeWord i).extractLsb' 8 8).toNat = i.strength % 256 ∧
    ((encodeWord i).extractLsb' 0 8).toNat =
      (0xDD + 0xC8 + (i.channel.toNat * 16 + i.mode.toNat) + i.strength % 256) % 256 ∧
    (encodeWord i).extractLsb' 8 16 = cmd16 i.channel i.mode i.strength

/-- From R59 (an inference the spec marks as its own): which words are frames, that each comes from exactly one command word, and how many there are. -/
def Obligations.FrameRecognition : Prop :=
  (∀ w : BitVec 40,
    (∃ ch md st, (frame ch md st).word40 = w) ↔
      w.extractLsb' 24 16 = 0xDDC8 ∧
      (w.extractLsb' 0 8).toNat =
        (0xDD + 0xC8 + (w.extractLsb' 16 8).toNat + (w.extractLsb' 8 8).toNat) % 256) ∧
  (∀ (w : BitVec 40) (ch md : Nibble) (st : Nat), (frame ch md st).word40 = w →
    ch = w.extractLsb' 20 4 ∧ md = w.extractLsb' 16 4 ∧ st % 256 = (w.extractLsb' 8 8).toNat) ∧
  (Set.range fun c : BitVec 16 =>
      (frame (c.extractLsb' 12 4) (c.extractLsb' 8 4) (c.extractLsb' 0 8).toNat).word40).ncard = 65536 ∧
  ({w : BitVec 40 | ∃ i : Instr, i.meaningful = true ∧ encodeWord i = w}).ncard = 900

/-- From R51: the mode field selects the command, on the frame word and on the command word. That a TRANSMIT word decodes
as SHOCK CH01 and a reserved mode as ENC is the model's choice of name (log 8). -/
def Obligations.OpcodeMapSelectsTheCommand : Prop :=
  (∀ (w : BitVec 40) (i : Instr), decode (Frame.ofWord w).bytes = .ok i →
    (rowShock.hits w = true ↔ ∃ ch st, i = .shock ch st) ∧
    (rowVibrate.hits w = true ↔ ∃ ch st, i = .vibrate ch st) ∧
    (rowBeep.hits w = true ↔ ∃ ch st, i = .beep ch st) ∧
    (rowTransmit.hits w = true ↔ ∃ st, i = .shock ch01 st) ∧
    rowEnc.hits w = true) ∧
  (∀ w : BitVec 16,
    (rowShock.hitsCmd w = true ↔ ∃ ch st, decodeCmd16 w = .shock ch st) ∧
    (rowVibrate.hitsCmd w = true ↔ ∃ ch st, decodeCmd16 w = .vibrate ch st) ∧
    (rowBeep.hitsCmd w = true ↔ ∃ ch st, decodeCmd16 w = .beep ch st) ∧
    (rowTransmit.hitsCmd w = true ↔ ∃ st, decodeCmd16 w = .shock ch01 st))

/-- Decoding the encoding of a command gives it back, with every operand at every value the frame admits;
the raw form of a defined mode and TRANSMIT come back under the mode's mnemonic (R62, R63; the choice of name is log 8). -/
def Obligations.DecodeOfEncode : Prop :=
  (∀ ch st, st < 256 → decode (encode (.shock ch st)) = .ok (.shock ch st)) ∧
  (∀ ch st, st < 256 → decode (encode (.vibrate ch st)) = .ok (.vibrate ch st)) ∧
  (∀ ch st, st < 256 → decode (encode (.beep ch st)) = .ok (.beep ch st)) ∧
  (∀ ch md st, st < 256 → md ≠ 1 → md ≠ 2 → md ≠ 3 →
    decode (encode (.enc ch md st)) = .ok (.enc ch md st)) ∧
  (∀ ch st, st < 256 → decode (encode (.enc ch 1 st)) = .ok (.shock ch st)) ∧
  (∀ ch st, st < 256 → decode (encode (.enc ch 2 st)) = .ok (.vibrate ch st)) ∧
  (∀ ch st, st < 256 → decode (encode (.enc ch 3 st)) = .ok (.beep ch st)) ∧
  (∀ st, st < 256 → decode (encode (.transmit st)) = .ok (.shock 0 st)) ∧
  (∀ i : Instr, decode (encode i) = .ok i.canonical)

/-- The decoder accepts nothing but encodings, and says by name why it rejects the rest (R59, R61). -/
def Obligations.EncodeOfDecode : Prop :=
  (∀ (bytes : List Byte) (i : Instr), decode bytes = .ok i → encode i = bytes ∧ i.strength < 256) ∧
  (∀ bytes : List Byte, decode bytes = .error .wrongLength ↔ bytes.length ≠ 5) ∧
  (∀ b0 b1 b2 b3 b4 : Byte,
    (decode [b0, b1, b2, b3, b4] = .error .wrongIdentifier ↔ ¬(b0 = 0xDD ∧ b1 = 0xC8)) ∧
    (decode [b0, b1, b2, b3, b4] = .error .wrongChecksum ↔
      b0 = 0xDD ∧ b1 = 0xC8 ∧
        b4.toNat ≠ (b0.toNat + b1.toNat + b2.toNat + b3.toNat) % 256))

/-- A few words written out bit by bit from the rows of opcode_table.json decode to their commands. -/
def Obligations.WordsWrittenOutDecode : Prop :=
  decode (Frame.ofWord 0b1101110111001000_0000_0001_00001010_10110000).bytes = .ok (.shock 0 10) ∧
  decode (Frame.ofWord 0b1101110111001000_0001_0010_00110010_11101001).bytes = .ok (.vibrate 1 50) ∧
  decode (Frame.ofWord 0b1101110111001000_0010_0011_00000000_11001000).bytes = .ok (.beep 2 0) ∧
  decode (Frame.ofWord 0b1101110111001000_1111_1111_11111111_10100011).bytes = .ok (.enc 15 15 255) ∧
  decode (Frame.ofWord 0b1101110111001000_1010_0101_10101010_11110100).bytes = .ok (.enc 10 5 170)

/-- A line printed from a command is parsed back to it (R62, R63; white space and the decimal form are log 13). -/
def Obligations.ParseOfRenderedLine : Prop :=
  ∀ (c : Config) (i : Instr), i.wellFormed c = true → parseLine c (renderLine i) = some i

/-! ### 40_commands.md -/

/-- R71: SHOCK, whole. -/
def Obligations.ShockCompletes : Prop :=
  (∀ (ch : Nibble) (st : Nat) (s : State), s.ready →
    exec (.shock ch st) s = .next
      { s with
        f2 := BitVec.ofNat 8 (ch.toNat * 16 + 1), f3 := BitVec.ofNat 8 (st % 256), pos := 0,
        busy := true, fvalid := true }) ∧
  (∀ (ch : Nibble) (st : Nat), (frame ch 1 st).b4.toNat = (0xA6 + ch.toNat * 16 + st % 256) % 256 ∧
    (encodeWord (.shock ch st)) &&& 0xFFFF0F0000 = 0xDDC8010000) ∧
  (∀ (ch : Nibble) (st : Nat) (s : State), exec (.shock ch st) s = exec (.enc ch 1 st) s) ∧
  encode (.shock 0 10) = [0xDD, 0xC8, 0x01, 0x0A, 0xB0] ∧
  encode (.shock 0 99) = [0xDD, 0xC8, 0x01, 0x63, 0x09] ∧
  encode (.shock 0 90) = [0xDD, 0xC8, 0x01, 0x5A, 0x00] ∧
  encode (.shock 0 89) = [0xDD, 0xC8, 0x01, 0x59, 0xFF]

/-- R72: VIBRATE, whole. -/
def Obligations.VibrateCompletes : Prop :=
  (∀ (ch : Nibble) (st : Nat) (s : State), s.ready →
    exec (.vibrate ch st) s = .next
      { s with
        f2 := BitVec.ofNat 8 (ch.toNat * 16 + 2), f3 := BitVec.ofNat 8 (st % 256), pos := 0,
        busy := true, fvalid := true }) ∧
  (∀ (ch : Nibble) (st : Nat), (frame ch 2 st).b4.toNat = (0xA7 + ch.toNat * 16 + st % 256) % 256 ∧
    (encodeWord (.vibrate ch st)) &&& 0xFFFF0F0000 = 0xDDC8020000) ∧
  (∀ (ch : Nibble) (st : Nat) (s : State), exec (.vibrate ch st) s = exec (.enc ch 2 st) s) ∧
  encode (.vibrate 1 50) = [0xDD, 0xC8, 0x12, 0x32, 0xE9] ∧
  (frame 0 2 89).b4 = 0x00

/-- R73: BEEP, whole. -/
def Obligations.BeepCompletes : Prop :=
  (∀ (ch : Nibble) (st : Nat) (s : State), s.ready →
    exec (.beep ch st) s = .next
      { s with
        f2 := BitVec.ofNat 8 (ch.toNat * 16 + 3), f3 := BitVec.ofNat 8 (st % 256), pos := 0,
        busy := true, fvalid := true }) ∧
  (∀ (ch : Nibble) (st : Nat), (frame ch 3 st).b4.toNat = (0xA8 + ch.toNat * 16 + st % 256) % 256 ∧
    (encodeWord (.beep ch st)) &&& 0xFFFF0F0000 = 0xDDC8030000) ∧
  (∀ (ch : Nibble) (st : Nat) (s : State), exec (.beep ch st) s = exec (.enc ch 3 st) s) ∧
  encode (.beep 2 0) = [0xDD, 0xC8, 0x23, 0x00, 0xC8]

/-- From R70, R52, R53 and R75: ENC completes for every channel, mode and strength, reserved ones included;
its frame and payload by steps 1 to 5, its corner cases and its example. -/
def Obligations.EncCompletes : Prop :=
  (∀ (ch md : Nibble) (st : Nat) (s : State), s.ready →
    exec (.enc ch md st) s = .next
      { s with
        f2 := BitVec.ofNat 8 (ch.toNat * 16 + md.toNat), f3 := BitVec.ofNat 8 (st % 256), pos := 0,
        busy := true, fvalid := true }) ∧
  (∀ (ch md : Nibble) (st : Nat),
    (encodeCommand ch md st).1.bytes =
      [0xDD, 0xC8, BitVec.ofNat 8 (ch.toNat * 16 + md.toNat), BitVec.ofNat 8 (st % 256),
        BitVec.ofNat 8 ((0xDD + 0xC8 + (ch.toNat * 16 + md.toNat) + st % 256) % 256)] ∧
    (encodeCommand ch md st).2 = payload (encodeCommand ch md st).1) ∧
  encode (.enc 0 0 0) = [0xDD, 0xC8, 0x00, 0x00, 0xA5] ∧
  encode (.enc 15 15 255) = [0xDD, 0xC8, 0xFF, 0xFF, 0xA3] ∧
  (encodeCommand 0 1 10).1.bytes = [0xDD, 0xC8, 0x01, 0x0A, 0xB0] ∧
  (encodeCommand 0 1 10).2 =
    ['E', 'E', ' ', '8', 'E', ' ', 'E', 'E', ' ', '8', 'E', ' ', 'E', 'E', ' ', '8', '8', ' ',
     'E', '8', ' ', '8', '8', ' ', '8', '8', ' ', '8', '8', ' ', '8', '8', ' ', '8', 'E', ' ',
     '8', '8', ' ', '8', '8', ' ', 'E', '8', ' ', 'E', '8', ' ', 'E', '8', ' ', 'E', 'E', ' ',
     '8', '8', ' ', '8', '8', ' ']

/-- R63: TRANSMIT completes, and is SHOCK CH01, which is ENC 0, 1, in every state and in its encoding. -/
def Obligations.TransmitCompletes : Prop :=
  (∀ (st : Nat) (s : State), s.ready →
    exec (.transmit st) s = .next
      { s with
        f2 := 0x01, f3 := BitVec.ofNat 8 (st % 256), pos := 0, busy := true, fvalid := true }) ∧
  (∀ (st : Nat) (s : State),
    exec (.transmit st) s = exec (.shock 0 st) s ∧ exec (.transmit st) s = exec (.enc 0 1 st) s) ∧
  (∀ st : Nat, encode (.transmit st) = encode (.shock 0 st) ∧ encode (.transmit st) = encode (.enc 0 1 st))

/-- The frame of the five commands: nothing but the five items of state changes, the hardwired bytes stay,
and while the block is busy nothing changes at all (R11, R40, R122, R126; the waiting meaning is log 9). -/
def Obligations.CommandFrame : Prop :=
  ∀ (i : Instr) (s t : State), exec i s = .next t →
    t.script = s.script ∧ t.rest = s.rest ∧ t.resetSeen = s.resetSeen ∧
    t.frame.b0 = s.frame.b0 ∧ t.frame.b1 = s.frame.b1 ∧
    (s.busy = true → t = s)

/-- From R126, R40 and R162: where a presented command does not complete. While BUSY = 1 it waits, and before the
first RESET it may not be presented (the form of these outcomes is the model's, log 2 and log 9). -/
def Obligations.CommandWaitsOrIsRefused : Prop :=
  ∀ (i : Instr) (s : State),
    (s.resetSeen = true → s.busy = true → exec i s = .next s) ∧
    (s.resetSeen = false → exec i s = .refused .beforeFirstReset)

/-! ### 41_packing.md and 42_checksum.md -/

/-- R83: the two nibbles are read back, for all 256 pairs. -/
def Obligations.PackedNibblesReadBack : Prop :=
  (∀ ch md : Nibble,
    (packNibbles ch md).toNat >>> 4 = ch.toNat ∧ (packNibbles ch md).toNat &&& 0xF = md.toNat ∧
    channelField (packNibbles ch md) = ch ∧ modeField (packNibbles ch md) = md) ∧
  ∀ ch md ch' md' : Nibble, packNibbles ch md = packNibbles ch' md' → ch = ch' ∧ md = md'

/-- R82 and R84: byte 3 is the strength, wrapped at the byte boundary and nowhere else. -/
def Obligations.StrengthWrapsOnlyAtTheByte : Prop :=
  (∀ (ch md : Nibble) (st : Nat), (frame ch md st).b3.toNat = st % 256) ∧
  (∀ (ch md : Nibble) (st : Nat), st < 256 → (frame ch md st).b3.toNat = st) ∧
  (∀ ch md : Nibble,
    (frame ch md 0).b3 = 0x00 ∧ (frame ch md 99).b3 = 0x63 ∧ (frame ch md 100).b3 = 0x64 ∧
    (frame ch md 255).b3 = 0xFF ∧ (frame ch md 256).b3 = 0x00 ∧ (frame ch md 300).b3 = 0x2C ∧
    (frame ch md 356).b3 = 0x64 ∧ (frame ch md (2 ^ 32 - 1)).b3 = 0xFF)

/-- From R90: the exact sum, reduced modulo 256. Its range and the three computations that give the same byte, in any order,
are R91, an inference the spec marks as its own. -/
def Obligations.ChecksumArithmetic : Prop :=
  (∀ b0 b1 b2 b3 : Byte,
    (csum b0 b1 b2 b3).toNat = (b0.toNat + b1.toNat + b2.toNat + b3.toNat) % 256 ∧
    csum b0 b1 b2 b3 =
      (b0.setWidth 10 + b1.setWidth 10 + b2.setWidth 10 + b3.setWidth 10).setWidth 8 ∧
    ∀ l : List Byte, l.Perm [b0, b1, b2, b3] → l.foldl (· + ·) 0 = csum b0 b1 b2 b3) ∧
  ∀ (ch md : Nibble) (st : Nat), let f := frame ch md st
    421 ≤ f.b0.toNat + f.b1.toNat + f.b2.toNat + f.b3.toNat ∧
    f.b0.toNat + f.b1.toNat + f.b2.toNat + f.b3.toNat ≤ 931 ∧
    f.b4.toNat = (0xA5 + f.b2.toNat + f.b3.toNat) % 256

/-- From R92 (an inference the spec marks as its own): the constant part of the checksum. -/
def Obligations.ChecksumConstantPart : Prop :=
  ∀ (ch md : Nibble) (st : Nat), let f := frame ch md st
    f.b0.toNat + f.b1.toNat = 421 ∧ (f.b0.toNat + f.b1.toNat) % 256 = 165 ∧
    f.b4.toNat = (0xA5 + f.b2.toNat + f.b3.toNat) % 256 ∧
    f.b4.toNat = (165 + ch.toNat * 16 + md.toNat + st % 256) % 256

/-- From R93 (an inference the spec marks as its own): exactly when the checksum is 0x00, 0xFF or 0xA5. -/
def Obligations.ChecksumEdgeResults : Prop :=
  (∀ b2 b3 : Byte, let n := b2.toNat + b3.toNat
    ((frameOf b2 b3).b4 = 0x00 ↔ n = 91 ∨ n = 347) ∧
    ((frameOf b2 b3).b4 = 0xFF ↔ n = 90 ∨ n = 346) ∧
    ((frameOf b2 b3).b4 = 0xA5 ↔ n = 0 ∨ n = 256)) ∧
  encode (.shock 0 90) = [0xDD, 0xC8, 0x01, 0x5A, 0x00] ∧
  encode (.shock 0 89) = [0xDD, 0xC8, 0x01, 0x59, 0xFF] ∧
  encode (.enc 0 0 0) = [0xDD, 0xC8, 0x00, 0x00, 0xA5] ∧
  encode (.shock 0 255) = [0xDD, 0xC8, 0x01, 0xFF, 0xA5]

/-- R94: two frames share their checksum exactly when b2 + b3 agrees modulo 256; a pair that does. -/
def Obligations.ChecksumCollisions : Prop :=
  (∀ b2 b3 c2 c3 : Byte,
    (frameOf b2 b3).b4 = (frameOf c2 c3).b4 ↔
      (b2.toNat + b3.toNat) % 256 = (c2.toNat + c3.toNat) % 256) ∧
  encode (.enc 0 1 16) = [0xDD, 0xC8, 0x01, 0x10, 0xB6] ∧
  encode (.enc 1 1 0) = [0xDD, 0xC8, 0x11, 0x00, 0xB6]

/-! ### 43_symbol_mapper.md and 44_descriptor.md -/

/-- From R56 (an inference the spec marks as its own): the token of each pair of bits, and the 20 tokens of the payload (R55). -/
def Obligations.TokenTable : Prop :=
  token false false = ['8', '8', ' '] ∧ token false true = ['8', 'E', ' '] ∧
  token true false = ['E', '8', ' '] ∧ token true true = ['E', 'E', ' '] ∧
  ∀ (f : Frame) (k : Nat), k < 20 →
    ((payload f).drop (3 * k)).take 3 = token (f.fbit (2 * k)) (f.fbit (2 * k + 1))

/-- From R103 (an inference the spec marks as its own) and R104: the length of the payload and its character at every position. -/
def Obligations.PayloadCharacters : Prop :=
  ∀ f : Frame,
    (payload f).length = 60 ∧
    (payload f)[59]? = some ' ' ∧
    ∀ p, p < 60 →
      (payload f)[p]? = some (charAt f p) ∧
      (p % 3 = 2 → charAt f p = ' ') ∧
      (p % 3 ≠ 2 →
        charAt f p = (if f.fbit (2 * (p / 3) + p % 3) then 'E' else '8') ∧ charAt f p ≠ ' ')

/-- From R107 (an inference the spec marks as its own): the first 24 characters are the same for every command. -/
def Obligations.PayloadConstantPrefix : Prop :=
  ∀ (ch md : Nibble) (st : Nat),
    (payload (frame ch md st)).take 24 =
      ['E', 'E', ' ', '8', 'E', ' ', 'E', 'E', ' ', '8', 'E', ' ', 'E', 'E', ' ', '8', '8', ' ',
       'E', '8', ' ', '8', '8', ' ']

/-- From R108 (an inference the spec marks as its own): the payload determines the frame, and with R59 the command word. -/
def Obligations.PayloadDeterminesTheFrame : Prop :=
  (∀ f : Frame, frameOfPayload (payload f) = some f) ∧
  (∀ f g : Frame, payload f = payload g → f = g) ∧
  ∀ (ch md ch' md' : Nibble) (st st' : Nat),
    payload (frame ch md st) = payload (frame ch' md' st') → cmd16 ch md st = cmd16 ch' md' st'

/-- From R110 and R111: the record, and the order of its data. What two commands' descriptors share besides is an inference
(from R107, which the spec marks as its own inference). -/
def Obligations.DescriptorDependsOnlyOnThePayload : Prop :=
  (∀ (c : Config) (f : Frame),
    descriptor c f =
      { protocol := c.protocolName, bitCount := 256, teUs := 250, tag := c.rawTag,
        data := c.preamble ++ payload f ++ c.postamble }) ∧
  ∀ (c : Config) (ch md ch' md' : Nibble) (st st' : Nat),
    let d := descriptor c (frame ch md st)
    let e := descriptor c (frame ch' md' st')
    d.data.length = e.data.length ∧
    d.data.take (c.preamble.length + 24) = e.data.take (c.preamble.length + 24) ∧
    d.data.drop (c.preamble.length + 60) = e.data.drop (c.preamble.length + 60)

/-- From R112: under the constraint on the open parameters, the data holds 256 symbol-units. -/
def Obligations.DescriptorHolds256Units : Prop :=
  ∀ (c : Config) (f : Frame), configLegal c = true →
    units c (descriptor c f).data = 256 ∧ units c (descriptor c f).data = (descriptor c f).bitCount

/-! ### 45_sequencer.md, 60_exceptions.md and 70_reset_and_hazards.md -/

/-- When a decoded command is presented to a ready block, the step is `exec` of that command, after the port sample is used up (R120, R122);
and a table word put where the step fetches runs its decoded command (the fetch is the model's, log 6 and log 7). -/
def Obligations.StepRunsTheDecodedCommand : Prop :=
  (∀ (s : State) (p : Inputs), s.ready → p.rst = false → p.cmdValid = true →
    step (s.scheduled [p]) = exec (decodeCommand p.cmdChannel p.cmdMode p.cmdStrength) s) ∧
  (∀ (s : State) (bytes : List Byte) (i : Instr), decode bytes = .ok i →
    step (s.presenting i.channel i.mode i.strength) =
      exec i { s with busy := false, pos := 0, resetSeen := true }) ∧
  ∀ (s : State) (nbits w : Nat) (i : Instr), decodeTableWord nbits w = some i →
    step (s.withFetchWord nbits w) = exec i { s with busy := false, pos := 0, resetSeen := true }

/-- R121: RESET, from any state, with any other inputs; handshakes in its step are void. -/
def Obligations.ResetStep : Prop :=
  (∀ (s : State) (p : Inputs), p.rst = true →
    step (s.scheduled [p]) = .next
      { s with
        f2 := 0x00, f3 := 0x00, pos := 0, busy := false, fvalid := false, resetSeen := true } ∧
    (s.scheduled [p]).commandTransfer = none ∧ (s.scheduled [p]).charTransfer = none) ∧
  ∀ p : Inputs, p.rst = true → step (State.reset.scheduled [p]) = .next State.reset

/-- R122: ACCEPT; the frame is whole from the next step, where the first character is offered.
Its code 0x45 is printed in R122's own example (the codes are log 12). -/
def Obligations.AcceptStep : Prop :=
  ∀ (s : State) (p : Inputs), s.ready → p.rst = false → p.cmdValid = true →
    ∃ t, step (s.scheduled [p]) = .next t ∧
      t = { s with
            f2 := BitVec.ofNat 8 (p.cmdChannel.toNat * 16 + p.cmdMode.toNat),
            f3 := BitVec.ofNat 8 (p.cmdStrength % 256), pos := 0, busy := true, fvalid := true } ∧
      t.outputs.frame = (frame p.cmdChannel p.cmdMode p.cmdStrength).word40 ∧
      t.outputs.symValid = true ∧ t.outputs.symData = 0x45 ∧
      (s.scheduled [p]).outputs.frame = s.frame.word40 ∧
      (s.scheduled [p]).commandTransfer = some ⟨p.cmdChannel, p.cmdMode, p.cmdStrength⟩ ∧
      (s.scheduled [p]).charTransfer = none

/-- R123: EMIT. -/
def Obligations.EmitStep : Prop :=
  ∀ (s : State) (p : Inputs), s.streaming → p.rst = false → p.symReady = true →
    (s.scheduled [p]).charTransfer =
      some ⟨charAt s.frame s.pos.toNat, decide (s.pos.toNat = 59)⟩ ∧
    s.outputs.symData = ascii (charAt s.frame s.pos.toNat) ∧
    (s.scheduled [p]).commandTransfer = none ∧
    (s.pos.toNat = 59 → step (s.scheduled [p]) = .next { s with pos := 0, busy := false }) ∧
    (s.pos.toNat ≠ 59 →
      step (s.scheduled [p]) = .next { s with pos := BitVec.ofNat 6 (s.pos.toNat + 1) } ∧
        s.pos.toNat + 1 ≤ 59)

/-- R124: HOLD. -/
def Obligations.HoldStep : Prop :=
  ∀ (s : State) (p : Inputs), s.resetSeen = true → p.rst = false →
    ((s.busy = false ∧ p.cmdValid = false) ∨ (s.busy = true ∧ p.symReady = false)) →
    step (s.scheduled [p]) = .next s ∧
    (s.scheduled [p]).commandTransfer = none ∧ (s.scheduled [p]).charTransfer = none

/-- From R120 and R150: a step is refused exactly when its inputs are outside the spec, and otherwise it gives a next state. -/
def Obligations.StepRefusesOnlyOutsideTheSpec : Prop :=
  ∀ s : State,
    ((∃ r, step s = .refused r) ↔
      s.drive.rst = .unknown ∨ s.drive.cmdValid = .unknown ∨ s.drive.symReady = .unknown ∨
      s.drive.cmdChannel = .unknown ∨ s.drive.cmdMode = .unknown ∨ s.drive.cmdStrength = .unknown ∨
      (∃ v, 16 ≤ v ∧ s.drive.cmdChannel = .value v) ∨ (∃ v, 16 ≤ v ∧ s.drive.cmdMode = .value v) ∨
      (s.resetSeen = false ∧ s.drive.rst = .low)) ∧
    ((¬∃ r, step s = .refused r) → ∃ s', step s = .next s' ∧ s'.script = s.script.tail ∧ s'.rest = s.rest)

/-- R127: the symbol handshake, and the offer that stands until it is taken or a RESET comes. -/
def Obligations.SymbolOfferStandsUntilTaken : Prop :=
  ∀ (s s' : State) (p : Inputs), s.Inv → s.resetSeen = true → s.inputs = .ok p → step s = .next s' →
    (s.charTransfer.isSome ↔ s.outputs.symValid = true ∧ p.symReady = true ∧ p.rst = false) ∧
    (∀ x, s.charTransfer = some x →
      ascii x.char = s.outputs.symData ∧ (x.last = true ↔ s.pos.toNat = 59)) ∧
    (s.outputs.symValid = true → s.charTransfer = none → p.rst = false →
      s'.outputs.symValid = true ∧ s'.outputs.symData = s.outputs.symData ∧
        s'.outputs.symLast = s.outputs.symLast)

/-- R126: the command handshake: exactly when a command is transferred, with which values, and that nothing else writes the frame. -/
def Obligations.CommandHandshake : Prop :=
  ∀ (s : State) (p : Inputs) (c : CommandTransfer), s.resetSeen = true →
    ((s.scheduled [p]).commandTransfer = some c ↔
      p.cmdValid = true ∧ s.outputs.cmdReady = true ∧ p.rst = false ∧
        c = ⟨p.cmdChannel, p.cmdMode, p.cmdStrength⟩) ∧
    (p.cmdValid = true → s.outputs.cmdReady = false → p.rst = false →
      ∃ t, step (s.scheduled [p]) = .next t ∧ t.frame = s.frame ∧ t.fvalid = s.fvalid)

/-- From R128 and R130: while fewer than 60 characters have been taken, the block streams, stands at their number,
and has handed out exactly the first of them; so 60 more steps at least are needed after ACCEPT. -/
def Obligations.PayloadPrefixWhileStreaming : Prop :=
  ∀ (s : State) (p : Inputs) (ps : List Inputs), s.ready → p.rst = false → p.cmdValid = true →
    noReset ps → readyCount ps ≤ 59 →
    transfers (ps.length + 1) (s.scheduled (p :: ps)) =
      (markedPayload (frame p.cmdChannel p.cmdMode p.cmdStrength)).take (readyCount ps) ∧
    (∀ x ∈ transfers (ps.length + 1) (s.scheduled (p :: ps)), x.last = false) ∧
    ∃ t, runSteps (ps.length + 1) (s.scheduled (p :: ps)) = .next t ∧
      t.busy = true ∧ t.pos.toNat = readyCount ps

/-- From R128 (an inference the spec marks as its own): stream correctness. After ACCEPT, with 60 characters taken and no RESET before the 60th, the characters are
exactly the payload, `sym_last` marks the 60th alone, the frame stands from the step after ACCEPT, and after the 60th
the block is idle and hands out nothing more until another ACCEPT. -/
def Obligations.StreamCorrectness : Prop :=
  ∀ (s : State) (p final : Inputs) (waiting after : List Inputs), s.ready →
    p.rst = false → p.cmdValid = true → noReset waiting → readyCount waiting = 59 →
    final.rst = false → final.symReady = true →
    noReset after → (∀ q ∈ after, q.cmdValid = false) →
    let f := frame p.cmdChannel p.cmdMode p.cmdStrength
    let run := s.scheduled (p :: waiting ++ [final] ++ after)
    transfers (waiting.length + 2 + after.length) run = markedPayload f ∧
    transfers (waiting.length + 2) run = markedPayload f ∧
    (markedPayload f).map CharTransfer.char = payload f ∧
    (∀ n, n < 60 → ((markedPayload f)[n]?).map CharTransfer.last = some (decide (n = 59))) ∧
    (∀ n, n ≤ waiting.length + 1 + after.length →
      ∃ t, runSteps (n + 1) run = .next t ∧ t.outputs.frame = f.word40 ∧
        (waiting.length + 1 ≤ n → t.busy = false))

/-- R129: if the consumer never takes a character, nothing ever changes, and no command is accepted. -/
def Obligations.NoTimeout : Prop :=
  ∀ (s : State) (p : Inputs) (n : Nat), s.streaming → s.script = [] → s.rest = p.drive →
    p.rst = false → p.symReady = false →
    runSteps n s = .next s ∧ transfers n s = [] ∧ commandsAccepted n s = [] ∧
    s.outputs.cmdReady = false

/-- From R131 (an inference the spec marks as its own): a run made of RESET steps, idle steps and completed commands transfers the payloads of its commands in order,
so two such runs that accept the same commands transfer the same characters. -/
def Obligations.TransfersFollowTheAcceptedCommands : Prop :=
  (∀ (s : State) (gs : List Segment), s.ready → (∀ g ∈ gs, g.complete) →
    let ps := gs.flatMap Segment.inputs
    transfers ps.length (s.scheduled ps) = gs.flatMap Segment.characters ∧
    commandsAccepted ps.length (s.scheduled ps) = gs.flatMap Segment.commands ∧
    ∃ t, runSteps ps.length (s.scheduled ps) = .next t ∧ t.ready ∧ t.script = s.script) ∧
  ∀ (s₁ s₂ : State) (gs hs : List Segment), s₁.ready → s₂.ready →
    (∀ g ∈ gs, g.complete) → (∀ g ∈ hs, g.complete) →
    let ps := gs.flatMap Segment.inputs
    let qs := hs.flatMap Segment.inputs
    commandsAccepted ps.length (s₁.scheduled ps) = commandsAccepted qs.length (s₂.scheduled qs) →
    transfers ps.length (s₁.scheduled ps) = transfers qs.length (s₂.scheduled qs)

/-- From R161: a RESET while streaming ends the payload; without another command nothing more is transferred. -/
def Obligations.ResetCutsThePayload : Prop :=
  ∀ (s : State) (r : Inputs) (ps : List Inputs), s.streaming → r.rst = true →
    (∀ q ∈ ps, q.cmdValid = false) →
    transfers (ps.length + 1) (s.scheduled (r :: ps)) = [] ∧
    ∀ n, n ≤ ps.length →
      ∃ t, runSteps (n + 1) (s.scheduled (r :: ps)) = .next t ∧
        t.outputs.symValid = false ∧ t.f2 = 0 ∧ t.f3 = 0 ∧ t.outputs.frameValid = false

/-- From R162 and R160: before the first RESET only a RESET step can be taken; one is enough, whatever the state was,
and the first command can come in the step right after it. -/
def Obligations.OneResetStepStartsTheBlock : Prop :=
  (∀ (s : State) (p : Inputs), s.resetSeen = false → p.rst = false →
    step (s.scheduled [p]) = .refused .beforeFirstReset) ∧
  (∀ (s : State) (r q : Inputs), r.rst = true → q.rst = true →
    runSteps 2 (s.scheduled [r, q]) = runSteps 1 (s.scheduled [r])) ∧
  ∀ (s : State) (r p : Inputs), r.rst = true → p.rst = false → p.cmdValid = true →
    ∃ t, runSteps 2 (s.scheduled [r, p]) = .next t ∧ t.busy = true ∧ t.fvalid = true ∧
      t.outputs.frame = (frame p.cmdChannel p.cmdMode p.cmdStrength).word40
end

