-- ==== Sys2Proof/Laws/State.lean ====
section
/-! SUPPORT. One lemma per field per state change, so that no proof unfolds a record update. -/

namespace Sys2Proof.Machine

section
variable (s : State) (ps : List Inputs)

@[simp] theorem State.advance_f2 : s.advance.f2 = s.f2 := rfl
@[simp] theorem State.advance_f3 : s.advance.f3 = s.f3 := rfl
@[simp] theorem State.advance_pos : s.advance.pos = s.pos := rfl
@[simp] theorem State.advance_busy : s.advance.busy = s.busy := rfl
@[simp] theorem State.advance_fvalid : s.advance.fvalid = s.fvalid := rfl
@[simp] theorem State.advance_resetSeen : s.advance.resetSeen = s.resetSeen := rfl
@[simp] theorem State.advance_script : s.advance.script = s.script.tail := rfl
@[simp] theorem State.advance_rest : s.advance.rest = s.rest := rfl
@[simp] theorem State.advance_frame : s.advance.frame = s.frame := rfl

@[simp] theorem State.scheduled_f2 : (s.scheduled ps).f2 = s.f2 := rfl
@[simp] theorem State.scheduled_f3 : (s.scheduled ps).f3 = s.f3 := rfl
@[simp] theorem State.scheduled_pos : (s.scheduled ps).pos = s.pos := rfl
@[simp] theorem State.scheduled_busy : (s.scheduled ps).busy = s.busy := rfl
@[simp] theorem State.scheduled_fvalid : (s.scheduled ps).fvalid = s.fvalid := rfl
@[simp] theorem State.scheduled_resetSeen : (s.scheduled ps).resetSeen = s.resetSeen := rfl
@[simp] theorem State.scheduled_rest : (s.scheduled ps).rest = s.rest := rfl
@[simp] theorem State.scheduled_script : (s.scheduled ps).script = ps.map Inputs.drive ++ s.script := rfl
@[simp] theorem State.scheduled_frame : (s.scheduled ps).frame = s.frame := rfl
@[simp] theorem State.scheduled_nil : s.scheduled [] = s := rfl
@[simp] theorem State.scheduled_cons_advance (p : Inputs) :
    (s.scheduled (p :: ps)).advance = s.scheduled ps := rfl
@[simp] theorem State.scheduled_cons_drive (p : Inputs) : (s.scheduled (p :: ps)).drive = p.drive := rfl

@[simp] theorem resetBlock_f2 : (resetBlock s).f2 = 0x00 := rfl
@[simp] theorem resetBlock_f3 : (resetBlock s).f3 = 0x00 := rfl
@[simp] theorem resetBlock_pos : (resetBlock s).pos = 0 := rfl
@[simp] theorem resetBlock_busy : (resetBlock s).busy = false := rfl
@[simp] theorem resetBlock_fvalid : (resetBlock s).fvalid = false := rfl
@[simp] theorem resetBlock_resetSeen : (resetBlock s).resetSeen = true := rfl
@[simp] theorem resetBlock_script : (resetBlock s).script = s.script := rfl
@[simp] theorem resetBlock_rest : (resetBlock s).rest = s.rest := rfl

@[simp] theorem holdStep_eq : holdStep s = s := rfl

end

section
variable (ch md : Nibble) (st : Nat) (s : State)

@[simp] theorem acceptCommand_f2 : (acceptCommand ch md st s).f2 = packNibbles ch md := rfl
@[simp] theorem acceptCommand_f3 : (acceptCommand ch md st s).f3 = strengthByte st := rfl
@[simp] theorem acceptCommand_pos : (acceptCommand ch md st s).pos = 0 := rfl
@[simp] theorem acceptCommand_busy : (acceptCommand ch md st s).busy = true := rfl
@[simp] theorem acceptCommand_fvalid : (acceptCommand ch md st s).fvalid = true := rfl
@[simp] theorem acceptCommand_resetSeen : (acceptCommand ch md st s).resetSeen = s.resetSeen := rfl
@[simp] theorem acceptCommand_script : (acceptCommand ch md st s).script = s.script := rfl
@[simp] theorem acceptCommand_rest : (acceptCommand ch md st s).rest = s.rest := rfl
@[simp] theorem acceptCommand_frame : (acceptCommand ch md st s).frame = frame ch md st := rfl

@[simp] theorem State.presenting_f2 : (s.presenting ch md st).f2 = s.f2 := rfl
@[simp] theorem State.presenting_f3 : (s.presenting ch md st).f3 = s.f3 := rfl
@[simp] theorem State.presenting_pos : (s.presenting ch md st).pos = 0 := rfl
@[simp] theorem State.presenting_busy : (s.presenting ch md st).busy = false := rfl
@[simp] theorem State.presenting_fvalid : (s.presenting ch md st).fvalid = s.fvalid := rfl
@[simp] theorem State.presenting_resetSeen : (s.presenting ch md st).resetSeen = true := rfl
@[simp] theorem State.presenting_rest : (s.presenting ch md st).rest = s.rest := rfl
@[simp] theorem State.presenting_script :
    (s.presenting ch md st).script = (presentInputs ch md st).drive :: s.script := rfl

end

section
variable (s : State)

@[simp] theorem emitChar_f2 : (emitChar s).f2 = s.f2 := by unfold emitChar; split <;> rfl
@[simp] theorem emitChar_f3 : (emitChar s).f3 = s.f3 := by unfold emitChar; split <;> rfl
@[simp] theorem emitChar_fvalid : (emitChar s).fvalid = s.fvalid := by unfold emitChar; split <;> rfl
@[simp] theorem emitChar_resetSeen : (emitChar s).resetSeen = s.resetSeen := by
  unfold emitChar; split <;> rfl
@[simp] theorem emitChar_script : (emitChar s).script = s.script := by unfold emitChar; split <;> rfl
@[simp] theorem emitChar_rest : (emitChar s).rest = s.rest := by unfold emitChar; split <;> rfl
@[simp] theorem emitChar_frame : (emitChar s).frame = s.frame := by simp [State.frame]
theorem emitChar_pos : (emitChar s).pos = if s.pos = 59 then 0 else s.pos + 1 := by
  unfold emitChar; split <;> rfl
theorem emitChar_busy : (emitChar s).busy = if s.pos = 59 then false else s.busy := by
  unfold emitChar; split <;> rfl

/-- The last position, as a bit vector and as a number (R16). -/
theorem pos_eq_59 (x : BitVec 6) : x = 59 ↔ x.toNat = 59 := by revert x; decide

/-- The next position as a number (R123). -/
theorem pos_succ_toNat {x : BitVec 6} (h : x.toNat < 59) : (x + 1).toNat = x.toNat + 1 := by
  revert x; decide

/-- Scheduling more inputs and changing the block do not touch each other. -/
theorem emitChar_scheduled (ps : List Inputs) :
    emitChar (s.scheduled ps) = (emitChar s).scheduled ps := by
  by_cases h : s.pos = 59
  · rw [emitChar, if_pos (show (s.scheduled ps).pos = 59 from h), emitChar, if_pos h]; rfl
  · rw [emitChar, if_neg (show ¬(s.scheduled ps).pos = 59 from h), emitChar, if_neg h]; rfl

theorem resetBlock_scheduled (ps : List Inputs) :
    resetBlock (s.scheduled ps) = (resetBlock s).scheduled ps := rfl

theorem acceptCommand_scheduled (ch md : Nibble) (st : Nat) (ps : List Inputs) :
    acceptCommand ch md st (s.scheduled ps) = (acceptCommand ch md st s).scheduled ps := rfl

end

end Sys2Proof.Machine
end

