-- ==== Sys2Proof/Laws/Boundary.lean ====
section
/-! SUPPORT. What the boundary answers: two-valued inputs come through as they are. -/

namespace Sys2Proof.Machine

@[simp] theorem Level.read_ofBool (p : Port) (b : Bool) : (Level.ofBool b).read p = .ok b := by
  cases b <;> rfl

@[simp] theorem Bus.readNibble_value_toNat (p : Port) (r : Refusal) (n : Nibble) :
    (Bus.value n.toNat).readNibble p r = .ok n := by
  have h : n.toNat < 16 := n.isLt
  simp [Bus.readNibble, h]

/-- Two-valued inputs come through the boundary unchanged. -/
@[simp] theorem Inputs.sample_drive (p : Inputs) : p.drive.sample = .ok p := by
  simp [Inputs.drive, Drive.sample, Bus.readStrength, bind, Except.bind, pure, Except.pure]

/-- A sample that comes through has every port read in turn. -/
theorem sample_ok {d : Drive} {p : Inputs} (h : d.sample = .ok p) :
    d.rst.read .rst = .ok p.rst ∧ d.cmdValid.read .cmdValid = .ok p.cmdValid ∧
    d.cmdChannel.readNibble .cmdChannel .channelTooWide = .ok p.cmdChannel ∧
    d.cmdMode.readNibble .cmdMode .modeTooWide = .ok p.cmdMode ∧
    d.cmdStrength.readStrength = .ok p.cmdStrength ∧ d.symReady.read .symReady = .ok p.symReady := by
  unfold Drive.sample at h
  cases h1 : d.rst.read .rst <;> rw [h1] at h <;> [cases h; skip]
  cases h2 : d.cmdValid.read .cmdValid <;> rw [h2] at h <;> [cases h; skip]
  cases h3 : d.cmdChannel.readNibble .cmdChannel .channelTooWide <;> rw [h3] at h <;> [cases h; skip]
  cases h4 : d.cmdMode.readNibble .cmdMode .modeTooWide <;> rw [h4] at h <;> [cases h; skip]
  cases h5 : d.cmdStrength.readStrength <;> rw [h5] at h <;> [cases h; skip]
  cases h6 : d.symReady.read .symReady <;> rw [h6] at h <;> [cases h; skip]
  cases h
  exact ⟨rfl, rfl, rfl, rfl, rfl, rfl⟩

/-- A one-bit port reads as 0 exactly when it is low. -/
theorem Level.read_false {p : Port} {l : Level} : l.read p = .ok false ↔ l = .low := by
  cases l <;> simp [Level.read]

/-- A one-bit port reads as 1 exactly when it is high. -/
theorem Level.read_true {p : Port} {l : Level} : l.read p = .ok true ↔ l = .high := by
  cases l <;> simp [Level.read]

/-- When a one-bit port is refused. -/
theorem Level.read_error {p : Port} {l : Level} : (∃ r, l.read p = .error r) ↔ l = .unknown := by
  cases l <;> simp [Level.read]

/-- When a 4-bit port is refused. -/
theorem Bus.readNibble_error {p : Port} {w : Refusal} {b : Bus} :
    (∃ r, b.readNibble p w = .error r) ↔ b = .unknown ∨ ∃ v, 16 ≤ v ∧ b = .value v := by
  cases b with
  | unknown => simp [Bus.readNibble]
  | value v => by_cases h : v < 16 <;> (simp [Bus.readNibble, h]; try omega)

/-- When the strength port is refused. -/
theorem Bus.readStrength_error {b : Bus} : (∃ r, b.readStrength = .error r) ↔ b = .unknown := by
  cases b <;> simp [Bus.readStrength]

/-- With scheduled inputs, and out of reset or in a RESET step, the step sees the first of them. -/
theorem inputs_scheduled (s : State) (p : Inputs) (ps : List Inputs)
    (h : (p.rst || s.resetSeen) = true) : (s.scheduled (p :: ps)).inputs = .ok p := by
  simp [State.inputs, h]

/-- What the boundary lets through: the sample, with a RESET step taken now or before. -/
theorem inputs_ok {s : State} {p : Inputs} (h : s.inputs = .ok p) :
    s.drive.sample = .ok p ∧ (p.rst || s.resetSeen) = true := by
  unfold State.inputs at h
  split at h
  · next q hq =>
    split at h
    · next hr => cases h; exact ⟨hq, hr⟩
    · cases h
  · cases h

end Sys2Proof.Machine
end

