-- ==== Sys2Proof/Laws/LevelF.lean ====
section
/-! SUPPORT. Small lemmas of the Level F functions. -/

namespace Sys2Proof.Machine

@[simp] theorem idHi_eq : idHi = 0xDD := rfl
@[simp] theorem idLo_eq : idLo = 0xC8 := rfl

@[simp] theorem frameOf_b0 (b2 b3 : Byte) : (frameOf b2 b3).b0 = 0xDD := rfl
@[simp] theorem frameOf_b1 (b2 b3 : Byte) : (frameOf b2 b3).b1 = 0xC8 := rfl
@[simp] theorem frameOf_b2 (b2 b3 : Byte) : (frameOf b2 b3).b2 = b2 := rfl
@[simp] theorem frameOf_b3 (b2 b3 : Byte) : (frameOf b2 b3).b3 = b3 := rfl

/-- Byte 2 as a number (R81). -/
theorem packNibbles_toNat (ch md : Nibble) :
    (packNibbles ch md).toNat = ch.toNat * 16 + md.toNat := by
  revert ch md; decide

@[simp] theorem strengthByte_toNat (st : Nat) : (strengthByte st).toNat = st % 256 := rfl

@[simp] theorem csum_toNat (b0 b1 b2 b3 : Byte) :
    (csum b0 b1 b2 b3).toNat = (b0.toNat + b1.toNat + b2.toNat + b3.toNat) % 256 := rfl

/-- A byte put below a number. -/
theorem shift_or_byte (n : Nat) (b : Byte) : n <<< 8 ||| b.toNat = n * 256 + b.toNat := by
  rw [← Nat.shiftLeft_add_eq_or_of_lt b.isLt n, Nat.shiftLeft_eq]

/-- The frame word as a number (R15). -/
theorem Frame.word40_toNat (f : Frame) :
    f.word40.toNat =
      f.b0.toNat * 2 ^ 32 + f.b1.toNat * 2 ^ 24 + f.b2.toNat * 2 ^ 16 + f.b3.toNat * 2 ^ 8 + f.b4.toNat := by
  have h1 : f.word40.toNat =
      ((((f.b0.toNat <<< 8 ||| f.b1.toNat) <<< 8 ||| f.b2.toNat) <<< 8 ||| f.b3.toNat) <<< 8 ||| f.b4.toNat) := by
    unfold Frame.word40
    rw [show ∀ x : BitVec (8 + 8 + 8 + 8 + 8), (BitVec.toNat (w := 40) x) = x.toNat from fun _ => rfl]
    simp only [BitVec.toNat_append]
  rw [h1]
  simp only [shift_or_byte]
  omega

/-- The frame word gives back the five bytes (R15). -/
@[simp] theorem Frame.ofWord_word40 (f : Frame) : Frame.ofWord f.word40 = f := by
  have h := f.word40_toNat
  have := f.b0.isLt; have := f.b1.isLt; have := f.b2.isLt; have := f.b3.isLt; have := f.b4.isLt
  rcases f with ⟨b0, b1, b2, b3, b4⟩
  simp only [Frame.ofWord, Frame.mk.injEq]
  refine ⟨?_, ?_, ?_, ?_, ?_⟩ <;> apply BitVec.eq_of_toNat_eq <;>
    simp only [BitVec.extractLsb'_toNat, h, Nat.shiftRight_eq_div_pow] <;> simp only at * <;> omega

/-- The five bytes give back the frame word (R15). -/
@[simp] theorem Frame.word40_ofWord (w : BitVec 40) : (Frame.ofWord w).word40 = w := by
  apply BitVec.eq_of_toNat_eq
  have := w.isLt
  rw [Frame.word40_toNat]
  simp only [Frame.ofWord, BitVec.extractLsb'_toNat, Nat.shiftRight_eq_div_pow]
  omega

theorem channelField_packNibbles (ch md : Nibble) : channelField (packNibbles ch md) = ch := by
  revert ch md; decide

theorem modeField_packNibbles (ch md : Nibble) : modeField (packNibbles ch md) = md := by
  revert ch md; decide

theorem packNibbles_fields (b : Byte) : packNibbles (channelField b) (modeField b) = b := by
  revert b; decide

end Sys2Proof.Machine
end

