-- ==== Sys2Proof/Laws/Ops.lean ====
section
/-! SUPPORT. One lemma per shared operation: everything it can do. -/

namespace Sys2Proof.Machine

/-- All a presented command can do: it is refused before the first RESET, waits while the block is busy, or is accepted. -/
theorem presentCommand_cases (ch md : Nibble) (st : Nat) (s : State) :
    (s.resetSeen = false ∧ presentCommand ch md st s = .refused .beforeFirstReset) ∨
    (s.resetSeen = true ∧ s.busy = true ∧ presentCommand ch md st s = .next s) ∨
    (s.resetSeen = true ∧ s.busy = false ∧
      presentCommand ch md st s = .next (acceptCommand ch md st s)) := by
  unfold presentCommand
  cases s.resetSeen <;> cases s.busy <;> simp

/-- Every arm of `exec` presents the command of its operands. -/
theorem exec_eq_presentCommand (i : Instr) (s : State) :
    exec i s = presentCommand i.channel i.mode i.strength s := by
  cases i <;> rfl

/-- The command decoded from the port has the operands on the port. -/
theorem decodeCommand_operands (ch md : Nibble) (st : Nat) :
    (decodeCommand ch md st).channel = ch ∧ (decodeCommand ch md st).mode = md ∧
      (decodeCommand ch md st).strength = st := by
  unfold decodeCommand
  split
  · next h => exact ⟨rfl, h.symm, rfl⟩
  · split
    · next h => exact ⟨rfl, h.symm, rfl⟩
    · split
      · next h => exact ⟨rfl, h.symm, rfl⟩
      · exact ⟨rfl, rfl, rfl⟩

/-- Running the decoded command presents the operands on the port. -/
theorem exec_decodeCommand (ch md : Nibble) (st : Nat) (s : State) :
    exec (decodeCommand ch md st) s = presentCommand ch md st s := by
  obtain ⟨h1, h2, h3⟩ := decodeCommand_operands ch md st
  rw [exec_eq_presentCommand, h1, h2, h3]

end Sys2Proof.Machine
end

