-- ==== Sys2Proof/Laws/PerInstr.lean ====
section
/-! SUPPORT. Statements about every instruction as syntax, one lemma per constructor. -/

namespace Sys2Proof.Laws.EncodeShape

open Sys2Proof.Machine

/-- An encoding is five bytes that begin with the identifier, and its word is recognised as a frame (R46, R59). -/
def Statement (i : Instr) : Prop :=
  (encode i).length = 5 ∧ (encode i).take 2 = [0xDD, 0xC8] ∧ recognised (encodeWord i) = true

/-- The word of any command's frame is recognised. -/
theorem recognised_frame (ch md : Nibble) (st : Nat) : recognised (frame ch md st).word40 = true := by
  simp [recognised, frame, frameOf]

theorem shock (ch : Nibble) (st : Nat) : Statement (.shock ch st) := ⟨rfl, rfl, recognised_frame _ _ _⟩
theorem vibrate (ch : Nibble) (st : Nat) : Statement (.vibrate ch st) := ⟨rfl, rfl, recognised_frame _ _ _⟩
theorem beep (ch : Nibble) (st : Nat) : Statement (.beep ch st) := ⟨rfl, rfl, recognised_frame _ _ _⟩
theorem enc (ch md : Nibble) (st : Nat) : Statement (.enc ch md st) := ⟨rfl, rfl, recognised_frame _ _ _⟩
theorem transmit (st : Nat) : Statement (.transmit st) := ⟨rfl, rfl, recognised_frame _ _ _⟩

end Sys2Proof.Laws.EncodeShape
end

