-- ==== Sys2Proof/Laws/Step.lean ====
section
/-! SUPPORT. What a step can do, said once; every invariant of the step follows from `step_next_cases`. -/

namespace Sys2Proof.Machine

/-- A step that answers a next state is one of RESET, ACCEPT, EMIT and HOLD, under the condition that selects it. -/
theorem step_next_cases {s s' : State} (h : step s = .next s') :
    ∃ p, s.inputs = .ok p ∧
      ((p.rst = true ∧ s' = resetBlock s.advance) ∨
       (p.rst = false ∧ s.resetSeen = true ∧ s.busy = false ∧ p.cmdValid = true ∧
          s' = acceptCommand p.cmdChannel p.cmdMode p.cmdStrength s.advance) ∨
       (p.rst = false ∧ s.resetSeen = true ∧ s.busy = true ∧ p.symReady = true ∧
          s' = emitChar s.advance) ∨
       (p.rst = false ∧ s.resetSeen = true ∧ (s.busy = false → p.cmdValid = false) ∧
          (s.busy = true → p.symReady = false) ∧ s' = s.advance)) := by
  unfold step at h
  split at h
  · cases h
  · next p hp =>
    refine ⟨p, hp, ?_⟩
    have hr := (inputs_ok hp).2
    cases h1 : p.rst <;> cases h2 : s.busy <;> cases h3 : p.cmdValid <;> cases h4 : p.symReady <;>
      simp_all [stepKind, exec_decodeCommand, presentCommand]

/-- A step is refused exactly when the boundary refuses its inputs; otherwise it answers a next state. -/
theorem step_of_inputs (s : State) :
    (∃ r, s.inputs = .error r ∧ step s = .refused r) ∨
    (∃ p s', s.inputs = .ok p ∧ step s = .next s') := by
  unfold step
  split
  · next r hr => exact .inl ⟨r, hr, rfl⟩
  · next p hp =>
    refine .inr ⟨p, ?_⟩
    have hr := (inputs_ok hp).2
    cases h1 : p.rst <;> cases h2 : s.busy <;> cases h3 : p.cmdValid <;> cases h4 : p.symReady <;>
      simp_all [stepKind, exec_decodeCommand, presentCommand]

end Sys2Proof.Machine
end

