-- ==== Sys2Proof/Tests/Slice0.lean ====
section
/-! SUPPORT. The model's own tests, from 95_test_vectors.md, and the witnesses of the statements' hypotheses. -/

namespace Sys2Proof.Tests

open Sys2Proof Sys2Proof.Machine

/-! ### Well-formedness: each check refuses an ill-formed term -/

/-- Ports with an 8-bit strength, and parameters that meet the constraint of rule R112; the values are a test's, not the block's. -/
def config8 : Config :=
  { strengthW := 8, protocolName := ['p'], rawTag := ['t'], preamble := List.replicate 12 'x' ++ [' '],
    postamble := List.replicate 12 'y', unitsPerChar := 4 }

theorem test_wellFormed_refuses_wide_strength : (Instr.shock 0 256).wellFormed config8 = false := by decide
theorem test_wellFormed_accepts_last_strength : (Instr.enc 15 15 255).wellFormed config8 = true := by decide
theorem test_strengthIsByte_refuses_256 : (Instr.beep 0 256).strengthIsByte = false := by decide
theorem test_meaningful_refuses_reserved_mode : (Instr.enc 0 4 10).meaningful = false := by decide
theorem test_meaningful_refuses_reserved_channel : (Instr.shock 3 10).meaningful = false := by decide
theorem test_meaningful_refuses_strength_100 : (Instr.shock 2 100).meaningful = false := by decide
theorem test_configLegal_accepts : configLegal config8 = true := by decide
theorem test_configLegal_refuses_narrow_strength :
    configLegal { config8 with strengthW := 7 } = false := by decide
theorem test_configLegal_refuses_wrong_total :
    configLegal { config8 with unitsPerChar := 1 } = false := by decide

/-! ### Decoding: words written out bit by bit from opcode_table.json (B4) -/

theorem test_decode_shock :
    decode [0b11011101, 0b11001000, 0b0000_0001, 0b00001010, 0b10110000] = .ok (.shock 0 10) := by rfl
theorem test_decode_vibrate :
    decode [0b11011101, 0b11001000, 0b0001_0010, 0b00110010, 0b11101001] = .ok (.vibrate 1 50) := by rfl
theorem test_decode_beep :
    decode [0b11011101, 0b11001000, 0b0010_0011, 0b00000000, 0b11001000] = .ok (.beep 2 0) := by rfl
theorem test_decode_enc_reserved :
    decode [0b11011101, 0b11001000, 0b1111_1111, 0b11111111, 0b10100011] = .ok (.enc 15 15 255) := by rfl
theorem test_decode_mode_zero :
    decode [0b11011101, 0b11001000, 0b0000_0000, 0b00000000, 0b10100101] = .ok (.enc 0 0 0) := by rfl
/-- TRANSMIT 10 has the word of SHOCK CH01, 10 (R63), and decodes to it. -/
theorem test_decode_transmit_word : decode (encode (.transmit 10)) = .ok (.shock 0 10) := by rfl
/-- The checksum that the source prints for this frame is wrong (C1), and the decoder says so. -/
theorem test_decode_refuses_printed_checksum :
    decode [0xDD, 0xC8, 0x01, 0x0A, 0x98] = .error .wrongChecksum := by rfl
theorem test_decode_refuses_identifier : decode [0xDD, 0xC9, 0x01, 0x0A, 0xB1] = .error .wrongIdentifier := by rfl
theorem test_decode_refuses_length : decode [0xDD, 0xC8, 0x01, 0x0A] = .error .wrongLength := by rfl
theorem test_decodeCmd16 : decodeCmd16 0x1232 = .vibrate 1 50 := by decide
theorem test_rows_of_the_commands_do_not_overlap :
    [rowShock, rowVibrate, rowBeep].Pairwise
      (fun a b => a.pattern &&& b.mask ≠ b.pattern &&& a.mask) := by decide
theorem test_tableWord_beep : decodeTableWord 40 0xDDC8030000 = some (.beep 0 0) := by decide
theorem test_tableWord_enc : decodeTableWord 40 0xDDC8000000 = some (.enc 0 0 0) := by decide
theorem test_fetched_word_runs :
    nextOf (step (State.reset.withFetchWord 40 0xDDC8020000)) =
      some { State.reset with f2 := 0x02, f3 := 0x00, busy := true, fvalid := true } := by decide

/-! ### Level F vectors -/

theorem test_frame_shock_99 : (frame 0 1 99).bytes = [0xDD, 0xC8, 0x01, 0x63, 0x09] := by rfl
theorem test_frame_strength_300 : (frame 0 1 300).bytes = [0xDD, 0xC8, 0x01, 0x2C, 0xD2] := by rfl
theorem test_frame_alternating : (frame 10 5 170).word40 = 0xDDC8A5AAF4 := by decide
theorem test_frameBits_first_byte :
    (frameBits (frame 0 1 10)).take 8 = [true, true, false, true, true, true, false, true] := by decide
/-- B5: the positions next to the field boundaries of `DD C8 01 0A B0`. -/
theorem test_charAt_positions :
    [23, 24, 34, 35, 42, 45, 48, 49, 51, 57, 58, 59].map (charAt (frame 0 1 10)) =
      [' ', '8', 'E', ' ', 'E', 'E', 'E', '8', 'E', '8', '8', ' '] := by decide
/-- B4: the tail of the payload of `ENC 10, 5, 170`. -/
theorem test_payload_tail :
    (payload (frame 10 5 170)).drop 24 =
      token true false ++ token true false ++ token false true ++ token false true ++
      token true false ++ token true false ++ token true false ++ token true false ++
      token true true ++ token true true ++ token false true ++ token false false := by decide
theorem test_ascii_codes : [symOne, symZero, sep].map ascii = [0x45, 0x38, 0x20] := by decide
theorem test_frameOfPayload : frameOfPayload (payload (frame 10 5 170)) = some (frame 10 5 170) := by decide
theorem test_frameOfPayload_refuses_missing_space :
    frameOfPayload ((payload (frame 0 1 10)).take 59) = none := by decide
theorem test_descriptor_units : units config8 (descriptor config8 (frame 0 1 10)).data = 256 := by decide

/-! ### Text lines (R62, R63) -/

theorem test_parse_shock :
    parseLine config8 (nameShock ++ [' ', 'C', 'H', '0', '1', ',', ' ', '1', '0']) = some (.shock 0 10) := by decide
theorem test_parse_enc_hex :
    parseLine config8 (nameEnc ++ [' ', '1', '5', ',', ' ', '0', 'x', 'F', ',', ' ', '0', 'x', 'f', 'F']) =
      some (.enc 15 15 255) := by decide
theorem test_parse_transmit : parseLine config8 (nameTransmit ++ [' ', '9', '9']) = some (.transmit 99) := by decide
theorem test_parse_refuses_channel_16 :
    parseLine config8 (nameBeep ++ [' ', '1', '6', ',', ' ', '0']) = none := by decide
theorem test_parse_refuses_wide_strength :
    parseLine config8 (nameTransmit ++ [' ', '2', '5', '6']) = none := by decide

/-! ### Single steps (B8) -/

/-- A block handing out the payload of `SHOCK CH01, 10`, at this position. -/
def streamingAt (pos : BitVec 6) : State :=
  { State.reset with f2 := 0x01, f3 := 0x0A, pos := pos, busy := true, fvalid := true }

/-- A block that has handed out the payload of `SHOCK CH01, 10`. -/
def doneState : State := { State.reset with f2 := 0x01, f3 := 0x0A, fvalid := true }

/-- A block before its first RESET, with something in every register. -/
def powerOn : State :=
  { f2 := 0x5A, f3 := 0xA5, pos := 63, busy := true, fvalid := false, resetSeen := false,
    script := [], rest := Drive.idle }

def cmdInputs : Inputs := presentInputs 1 2 50
def rstInputs : Inputs := { takeInputs with rst := true, cmdValid := true }
def quietInputs : Inputs := { takeInputs with symReady := false }

theorem test_accept_wraps_strength :
    nextOf (step (State.reset.scheduled [presentInputs 2 3 300])) =
      some { State.reset with f2 := 0x23, f3 := 0x2C, busy := true, fvalid := true } := by decide
theorem test_exec_shock :
    nextOf (exec (.shock 0 10) State.reset) = some (streamingAt 0) := by decide
theorem test_exec_vibrate_after_payload :
    nextOf (exec (.vibrate 1 50) doneState) = some { streamingAt 0 with f2 := 0x12, f3 := 0x32 } := by decide
theorem test_exec_beep :
    nextOf (exec (.beep 2 99) State.reset) = some { streamingAt 0 with f2 := 0x23, f3 := 0x63 } := by decide
theorem test_exec_enc_reserved :
    nextOf (exec (.enc 15 15 511) State.reset) = some { streamingAt 0 with f2 := 0xFF, f3 := 0xFF } := by decide
theorem test_exec_transmit :
    nextOf (exec (.transmit 10) State.reset) = some (streamingAt 0) := by decide
theorem test_emit_moves_on :
    nextOf (step ((streamingAt 34).scheduled [takeInputs])) = some (streamingAt 35) := by decide
theorem test_emit_transfers_low_mode_bit :
    ((streamingAt 34).scheduled [takeInputs]).charTransfer = some ⟨'E', false⟩ := by decide
theorem test_emit_last_goes_idle :
    nextOf (step ((streamingAt 59).scheduled [takeInputs])) = some doneState := by decide
theorem test_emit_last_is_marked :
    ((streamingAt 59).scheduled [takeInputs]).charTransfer = some ⟨' ', true⟩ := by decide
theorem test_command_waits_while_emitting :
    nextOf (step ((streamingAt 5).scheduled [{ cmdInputs with symReady := true }])) = some (streamingAt 6) := by decide
theorem test_command_waits_while_holding :
    nextOf (step ((streamingAt 5).scheduled [cmdInputs])) = some (streamingAt 5) := by decide
theorem test_idle_ready_consumer_holds :
    nextOf (step (State.reset.scheduled [takeInputs])) = some State.reset := by decide
theorem test_reset_wins :
    nextOf (step ((streamingAt 17).scheduled [rstInputs])) = some State.reset := by decide
theorem test_reset_voids_transfer : ((streamingAt 17).scheduled [rstInputs]).charTransfer = none := by decide
theorem test_power_on_needs_reset : nextOf (step (powerOn.scheduled [takeInputs])) = none := by decide
theorem test_power_on_reset : nextOf (step (powerOn.scheduled [rstInputs])) = some State.reset := by decide
theorem test_outputs_at_last_position :
    (streamingAt 59).outputs = ⟨false, true, 0xDDC8010AB0, true, true, 0x20, true⟩ := by decide
theorem test_outputs_done : doneState.outputs = ⟨true, false, 0xDDC8010AB0, true, false, 0x45, false⟩ := by decide
theorem test_unknown_input_refused :
    step { State.reset with script := [{ Drive.idle with symReady := .unknown }] } =
      .refused (.notTwoValued .symReady) := by rfl
theorem test_channel_16_refused :
    step { State.reset with script := [{ Drive.idle with cmdChannel := .value 16 }] } =
      .refused .channelTooWide := by rfl
theorem test_mode_16_refused :
    step { State.reset with script := [{ Drive.idle with cmdMode := .value 16 }] } =
      .refused .modeTooWide := by rfl

/-! ### Witnesses: for each statement with hypotheses, a state and operands that meet them all -/

theorem witness_ready : State.reset.ready ∧ doneState.ready := ⟨⟨rfl, rfl⟩, ⟨rfl, rfl⟩⟩

theorem inv_of_streaming (pos : BitVec 6) (h : pos.toNat ≤ 59) : (streamingAt pos).Inv := by
  intro _
  exact ⟨h, fun hb => (Bool.noConfusion hb), fun _ => rfl, fun hv => (Bool.noConfusion hv)⟩

/-- A presented command, accepted: the hypotheses of the completion statements, AcceptStep, EarlierHistoryDoesNotShow. -/
theorem witness_accept :
    State.reset.ready ∧ doneState.ready ∧ cmdInputs.rst = false ∧ cmdInputs.cmdValid = true :=
  ⟨⟨rfl, rfl⟩, ⟨rfl, rfl⟩, rfl, rfl⟩

theorem witness_IdentifierBytesAreHardwired :
    step (State.reset.scheduled [cmdInputs]) =
      .next { State.reset with f2 := 0x12, f3 := 0x32, busy := true, fvalid := true } := by rfl

/-- The clauses of FrameRegistersWrittenOnlyByAcceptAndReset, BusyFlagAndItsTransitions, FrameValidFlagRule and
PositionCounterRule: a RESET, an accepted command, a character at 58 and at 59, and a step that transfers nothing. -/
theorem witness_step_clause_reset :
    (streamingAt 59).Inv ∧ ((streamingAt 59).scheduled [rstInputs]).inputs = .ok rstInputs ∧
    step ((streamingAt 59).scheduled [rstInputs]) = .next State.reset ∧ rstInputs.rst = true :=
  ⟨inv_of_streaming 59 (by decide), rfl, rfl, rfl⟩

theorem witness_step_clause_command :
    State.reset.Inv ∧ (State.reset.scheduled [cmdInputs]).commandTransfer = some ⟨1, 2, 50⟩ := by
  refine ⟨?_, by decide⟩
  intro _; decide

theorem witness_step_clause_char_58 :
    (streamingAt 58).Inv ∧ ((streamingAt 58).scheduled [takeInputs]).charTransfer.isSome ∧
    (streamingAt 58).pos.toNat ≠ 59 :=
  ⟨inv_of_streaming 58 (by decide), by decide, by decide⟩

theorem witness_step_clause_char_59 :
    (streamingAt 59).Inv ∧ ((streamingAt 59).scheduled [takeInputs]).charTransfer.isSome ∧
    (streamingAt 59).pos.toNat = 59 :=
  ⟨inv_of_streaming 59 (by decide), by decide, by decide⟩

theorem witness_step_clause_quiet :
    ((streamingAt 5).scheduled [quietInputs]).commandTransfer = none ∧
    ((streamingAt 5).scheduled [quietInputs]).charTransfer = none ∧ quietInputs.rst = false ∧
    step ((streamingAt 5).scheduled [quietInputs]) = .next (streamingAt 5) := by
  exact ⟨by decide, by decide, rfl, rfl⟩

theorem witness_FrameValidFlagRule :
    State.reset.Inv ∧ State.reset.resetSeen = true ∧ State.reset.fvalid = false := by
  refine ⟨?_, rfl, rfl⟩
  intro _; decide

theorem witness_ResetStep : rstInputs.rst = true := rfl

theorem witness_InvariantKeptByEveryStep :
    (streamingAt 59).Inv ∧ step ((streamingAt 59).scheduled [takeInputs]) = .next doneState ∧
    (powerOn.scheduled [rstInputs]).drive.rst = .high ∧ step (powerOn.scheduled [rstInputs]) = .next State.reset :=
  ⟨inv_of_streaming 59 (by decide), rfl, rfl, rfl⟩

theorem witness_ReachableStatesAreSound :
    (powerOn.scheduled [rstInputs, cmdInputs]).drive.rst = .high ∧
    runSteps 2 (powerOn.scheduled [rstInputs, cmdInputs]) =
      .next { State.reset with f2 := 0x12, f3 := 0x32, busy := true, fvalid := true } ∧
    step ((streamingAt 3).scheduled [takeInputs]) = .next (streamingAt 4) ∧
    ((streamingAt 3).scheduled [takeInputs]).drive.rst = .low := ⟨rfl, rfl, rfl, rfl⟩

theorem witness_FrameBitOrder : (0 < 40 ∧ 39 < 40) ∧ 15 < 16 ∧ 3 < 4 ∧ 7 < 8 := by decide

theorem witness_CommandInputsReadOnlyWhenAccepted :
    ((streamingAt 5).scheduled [cmdInputs]).commandTransfer = none ∧
    ((streamingAt 5).scheduled [quietInputs]).commandTransfer = none ∧
    cmdInputs.rst = quietInputs.rst ∧ cmdInputs.symReady = quietInputs.symReady ∧ cmdInputs ≠ quietInputs := by decide

theorem witness_FrameRecognition :
    (frame 15 15 255).word40 = 0xDDC8FFFFA3 ∧ (frame 0 1 10).word40 = 0xDDC8010AB0 ∧
    (Instr.shock 2 99).meaningful = true := by decide

theorem witness_OpcodeMapSelectsTheCommand :
    decode (Frame.ofWord 0xDDC8010AB0).bytes = .ok (.shock 0 10) ∧ rowTransmit.hits 0xDDC8010AB0 = true := ⟨rfl, rfl⟩

theorem witness_DecodeOfEncode :
    0 < 256 ∧ 255 < 256 ∧ (0 : Nibble) ≠ 1 ∧ (0 : Nibble) ≠ 2 ∧ (0 : Nibble) ≠ 3 ∧
    (4 : Nibble) ≠ 1 ∧ (4 : Nibble) ≠ 2 ∧ (4 : Nibble) ≠ 3 := by decide

theorem witness_EncodeOfDecode : decode [0xDD, 0xC8, 0xFF, 0xFF, 0xA3] = .ok (.enc 15 15 255) := by rfl

theorem witness_ParseOfRenderedLine : (Instr.transmit 255).wellFormed config8 = true := by decide

theorem witness_CommandFrame :
    exec (.beep 2 0) State.reset = .next { streamingAt 0 with f2 := 0x23, f3 := 0x00 } ∧
    exec (.beep 2 0) (streamingAt 5) = .next (streamingAt 5) ∧ (streamingAt 5).busy = true := ⟨rfl, rfl, rfl⟩

theorem witness_CommandWaitsOrIsRefused :
    (streamingAt 59).resetSeen = true ∧ (streamingAt 59).busy = true ∧ powerOn.resetSeen = false := by decide

theorem witness_StrengthWrapsOnlyAtTheByte : 255 < 256 := by decide

theorem witness_PackedNibblesReadBack : packNibbles 15 0 = packNibbles 15 0 := rfl

theorem witness_ChecksumArithmetic : [0x01, 0xC8, 0xDD, 0x0A].Perm [0xDD, 0xC8, 0x01, (0x0A : Byte)] := by decide

theorem witness_TokenTable : 0 < 20 ∧ 19 < 20 := by decide

theorem witness_PayloadCharacters :
    59 < 60 ∧ 59 % 3 = 2 ∧ 58 < 60 ∧ 58 % 3 ≠ 2 ∧ 0 < 60 ∧ 0 % 3 ≠ 2 := by decide

theorem witness_PayloadDeterminesTheFrame : payload (frame 0 1 0) = payload (frame 0 1 256) := by decide

theorem witness_DescriptorHolds256Units : configLegal config8 = true := by decide

theorem witness_StepRunsTheDecodedCommand :
    decode [0xDD, 0xC8, 0x12, 0x32, 0xE9] = .ok (.vibrate 1 50) ∧
    decodeTableWord 40 0xDDC8120000 = some (.vibrate 1 0) := ⟨rfl, by decide⟩

theorem witness_EmitStep :
    (streamingAt 59).streaming ∧ (streamingAt 0).streaming ∧ takeInputs.rst = false ∧ takeInputs.symReady = true :=
  ⟨⟨rfl, rfl, by decide⟩, ⟨rfl, rfl, by decide⟩, rfl, rfl⟩

theorem witness_HoldStep :
    State.reset.resetSeen = true ∧ (State.reset.busy = false ∧ takeInputs.cmdValid = false) ∧
    (streamingAt 5).resetSeen = true ∧ ((streamingAt 5).busy = true ∧ quietInputs.symReady = false) ∧
    takeInputs.rst = false ∧ quietInputs.rst = false := by decide

theorem witness_StepRefusesOnlyOutsideTheSpec :
    step State.reset = .next State.reset ∧
    step (powerOn.scheduled [quietInputs]) = .refused .beforeFirstReset := ⟨rfl, rfl⟩

theorem witness_SymbolOfferStandsUntilTaken :
    (streamingAt 59).Inv ∧ (streamingAt 59).resetSeen = true ∧
    ((streamingAt 59).scheduled [quietInputs]).inputs = .ok quietInputs ∧
    step ((streamingAt 59).scheduled [quietInputs]) = .next (streamingAt 59) ∧
    (streamingAt 59).outputs.symValid = true ∧ ((streamingAt 59).scheduled [quietInputs]).charTransfer = none ∧
    quietInputs.rst = false :=
  ⟨inv_of_streaming 59 (by decide), rfl, rfl, rfl, rfl, by decide, rfl⟩

theorem witness_CommandHandshake :
    (streamingAt 5).resetSeen = true ∧ cmdInputs.cmdValid = true ∧ (streamingAt 5).outputs.cmdReady = false ∧
    cmdInputs.rst = false := by decide

theorem witness_PayloadPrefixWhileStreaming :
    noReset (List.replicate 59 takeInputs) ∧ readyCount (List.replicate 59 takeInputs) = 59 := by
  refine ⟨?_, by decide⟩
  intro p hp
  rw [List.eq_of_mem_replicate hp]; rfl

/-- With witness_accept: a hold among the 59 steps, then the 60th character, then an idle step. -/
theorem witness_StreamCorrectness :
    noReset (quietInputs :: List.replicate 59 takeInputs) ∧
    readyCount (quietInputs :: List.replicate 59 takeInputs) = 59 ∧
    takeInputs.rst = false ∧ takeInputs.symReady = true ∧ noReset [takeInputs] ∧
    ∀ q ∈ [takeInputs], q.cmdValid = false := by
  refine ⟨?_, by decide, rfl, rfl, ?_, ?_⟩
  · intro p hp
    rcases List.mem_cons.1 hp with h | h
    · rw [h]; rfl
    · rw [List.eq_of_mem_replicate h]; rfl
  · intro p hp; rw [List.mem_singleton.1 hp]; rfl
  · intro p hp; rw [List.mem_singleton.1 hp]; rfl

theorem witness_NoTimeout :
    ({ streamingAt 0 with rest := cmdInputs.drive } : State).streaming ∧
    ({ streamingAt 0 with rest := cmdInputs.drive } : State).script = [] ∧
    cmdInputs.rst = false ∧ cmdInputs.symReady = false := ⟨⟨rfl, rfl, by decide⟩, rfl, rfl, rfl⟩

theorem witness_TransfersFollowTheAcceptedCommands :
    ∀ g ∈ programSegments [.shock 0 10, .transmit 99] ++ [Segment.resetStep rstInputs, Segment.idleStep takeInputs],
      g.complete := by
  have h := witness_PayloadPrefixWhileStreaming
  intro g hg
  simp only [programSegments, List.map, List.cons_append, List.nil_append, List.mem_cons, List.not_mem_nil,
    or_false] at hg
  rcases hg with rfl | rfl | rfl | rfl
  · exact ⟨h.1, h.2, rfl, rfl⟩
  · exact ⟨h.1, h.2, rfl, rfl⟩
  · trivial
  · trivial

theorem witness_ResetCutsThePayload :
    (streamingAt 17).streaming ∧ rstInputs.rst = true ∧ ∀ q ∈ [takeInputs], q.cmdValid = false := by
  refine ⟨⟨rfl, rfl, by decide⟩, rfl, ?_⟩
  intro p hp; rw [List.mem_singleton.1 hp]; rfl

theorem witness_OneResetStepStartsTheBlock :
    powerOn.resetSeen = false ∧ quietInputs.rst = false ∧ rstInputs.rst = true ∧
    cmdInputs.rst = false ∧ cmdInputs.cmdValid = true := by decide

end Sys2Proof.Tests
end

/-! PROOFS. 10_state.md: the two handshakes as cases of a step, the fields of the frame bytes, and the statements O1, O2, O4, O5. -/

namespace Sys2Proof.Machine

/-! ### The handshakes, and a step in their terms -/

section
variable {s s' : State} {p : Inputs}

/-- R126 in terms of the sampled inputs. -/
theorem commandTransfer_of_inputs (hp : s.inputs = .ok p) :
    s.commandTransfer =
      if p.cmdValid && !s.busy && !p.rst then some ⟨p.cmdChannel, p.cmdMode, p.cmdStrength⟩ else none := by
  rw [State.commandTransfer, hp]; rfl

/-- R127 in terms of the sampled inputs. -/
theorem charTransfer_of_inputs (hp : s.inputs = .ok p) :
    s.charTransfer =
      if s.busy && p.symReady && !p.rst then some ⟨s.symChar, s.symLast⟩ else none := by
  rw [State.charTransfer, hp]; rfl

/-- `step_next_cases` with what is transferred in each kind of step: nothing in RESET and HOLD, the command in ACCEPT,
the character in EMIT (R121 to R124, R126, R127). -/
theorem step_transfer_cases (hp : s.inputs = .ok p) (h : step s = .next s') :
    (p.rst = true ∧ s.commandTransfer = none ∧ s.charTransfer = none ∧ s' = resetBlock s.advance) ∨
    (p.rst = false ∧ s.resetSeen = true ∧ s.busy = false ∧
      s.commandTransfer = some ⟨p.cmdChannel, p.cmdMode, p.cmdStrength⟩ ∧ s.charTransfer = none ∧
      s' = acceptCommand p.cmdChannel p.cmdMode p.cmdStrength s.advance) ∨
    (p.rst = false ∧ s.resetSeen = true ∧ s.busy = true ∧ s.commandTransfer = none ∧
      s.charTransfer = some ⟨s.symChar, s.symLast⟩ ∧ s' = emitChar s.advance) ∨
    (p.rst = false ∧ s.resetSeen = true ∧ s.commandTransfer = none ∧ s.charTransfer = none ∧
      s' = s.advance) := by
  obtain ⟨q, hq, hcases⟩ := step_next_cases h
  obtain rfl : p = q := Except.ok.inj (hp.symm.trans hq)
  rw [commandTransfer_of_inputs hp, charTransfer_of_inputs hp]
  obtain ⟨hr, rfl⟩ | ⟨hr, hs, hb, hv, rfl⟩ | ⟨hr, hs, hb, hy, rfl⟩ | ⟨hr, hs, hcmd, hsym, rfl⟩ := hcases
  · simp [hr]
  · simp [hr, hs, hb, hv]
  · simp [hr, hs, hb, hy]
  · cases hb : s.busy with
    | false => simp [hr, hs, hcmd hb]
    | true => simp [hr, hs, hsym hb]

end

/-! ### The fields of the frame bytes -/

/-- `CH` as a number (R12). -/
theorem channelField_toNat (b : Byte) : (channelField b).toNat = b.toNat / 16 := by
  have := b.isLt
  simp only [channelField, BitVec.extractLsb'_toNat, Nat.shiftRight_eq_div_pow]
  omega

/-- `MD` as a number (R12). -/
theorem modeField_toNat (b : Byte) : (modeField b).toNat = b.toNat % 16 := by
  simp [modeField, BitVec.extractLsb'_toNat]

/-- A byte read as a strength is packed as it is (R13). -/
@[simp] theorem strengthByte_byte (b : Byte) : strengthByte b.toNat = b := by
  simp [strengthByte]

/-- Bits 39 to 24 of the frame word are bytes 0 and 1 (R15). -/
theorem Frame.word40_upper (f : Frame) : f.word40.extractLsb' 24 16 = f.b0 ++ f.b1 := by
  have := f.b0.isLt; have := f.b1.isLt; have := f.b2.isLt; have := f.b3.isLt; have := f.b4.isLt
  apply BitVec.eq_of_toNat_eq
  rw [BitVec.extractLsb'_toNat, Frame.word40_toNat, BitVec.toNat_append, shift_or_byte,
    Nat.shiftRight_eq_div_pow]
  omega

@[simp] theorem State.frame_b0 (s : State) : s.frame.b0 = 0xDD := rfl
@[simp] theorem State.frame_b1 (s : State) : s.frame.b1 = 0xC8 := rfl

/-- `F[4]` as a number (R14, R90). -/
theorem State.frame_b4_toNat (s : State) :
    s.frame.b4.toNat = (0xDD + 0xC8 + s.f2.toNat + s.f3.toNat) % 256 :=
  csum_toNat idHi idLo s.f2 s.f3

/-- `DEVICE_ID` is visible in every state (R19). -/
theorem State.deviceIdView_eq (s : State) : s.deviceIdView = 0xDDC8 := by
  rw [State.deviceIdView, State.frameWord, Frame.word40_upper, State.frame_b0, State.frame_b1]
  rfl

/-! ### A command on a ready block -/

/-- A ready block takes any command at its port (R122). -/
theorem State.ready.exec_eq {s : State} (h : s.ready) (i : Instr) :
    exec i s = .next (acceptCommand i.channel i.mode i.strength s) := by
  obtain ⟨hs, hb⟩ := h
  simp [exec_eq_presentCommand, presentCommand, hs, hb]

/-! ### The stream position -/

section
variable {s : State}

/-- EMIT at the last position starts over (R123). -/
theorem emitChar_pos_last (h : s.pos.toNat = 59) : (emitChar s).pos = 0 := by
  rw [emitChar_pos, if_pos ((pos_eq_59 _).2 h)]

/-- EMIT before the last position moves on by one (R123). -/
theorem emitChar_pos_next (h : s.pos.toNat < 59) : (emitChar s).pos.toNat = s.pos.toNat + 1 := by
  rw [emitChar_pos, if_neg (fun h59 => h.ne ((pos_eq_59 _).1 h59)), pos_succ_toNat h]

/-- EMIT before the last position goes on streaming (R123). -/
theorem emitChar_busy_next (h : s.pos.toNat < 59) : (emitChar s).busy = s.busy := by
  rw [emitChar_busy, if_neg (fun h59 => h.ne ((pos_eq_59 _).1 h59))]

/-- The part of the invariant that speaks of POS: at most 59, and 0 on an idle block (R16, R24). -/
def State.PosSound (s : State) : Prop := s.pos.toNat ≤ 59 ∧ (s.busy = false → s.pos = 0)

/-- A block out of reset with the invariant has a sound position. -/
theorem State.Inv.posSound (h : s.Inv) (hs : s.resetSeen = true) : s.PosSound :=
  ⟨(h hs).1, (h hs).2.1⟩

/-- A block at position 0 has a sound position. -/
theorem State.PosSound.of_pos_eq_zero (h : s.pos = 0) : s.PosSound := by
  simp [State.PosSound, h]

/-- EMIT keeps the position sound: it stays below 60, and leaves the block idle only at 0 (R16). -/
theorem emitChar_posSound (h : s.PosSound) (hb : s.busy = true) : (emitChar s).PosSound := by
  obtain h59 | hlt := h.1.eq_or_lt
  · exact .of_pos_eq_zero (emitChar_pos_last h59)
  · refine ⟨?_, fun hidle => ?_⟩
    · rw [emitChar_pos_next hlt]; exact hlt
    · rw [emitChar_busy_next hlt, hb] at hidle; cases hidle

end

/-- Every step from a state with the invariant leaves a sound position (R16). -/
theorem State.Inv.step_posSound {s s' : State} (hinv : s.Inv) (h : step s = .next s') :
    s'.PosSound := by
  obtain ⟨p, -, hcases⟩ := step_next_cases h
  obtain ⟨-, rfl⟩ | ⟨-, -, -, -, rfl⟩ | ⟨-, hs, hb, -, rfl⟩ | ⟨-, hs, -, -, rfl⟩ := hcases
  · exact .of_pos_eq_zero rfl
  · exact .of_pos_eq_zero rfl
  · exact emitChar_posSound (s := s.advance) (hinv.posSound hs) hb
  · exact hinv.posSound hs

/-! ### The statements -/

/-- Settles O4: each kind of step is looked up in `step_transfer_cases`, and a ready block takes ENC with the fields of
any byte. -/
theorem frameRegistersWrittenOnlyByAcceptAndReset :
    Obligations.FrameRegistersWrittenOnlyByAcceptAndReset := by
  refine ⟨fun s => ⟨channelField_toNat s.f2, modeField_toNat s.f2⟩, ?_, ?_⟩
  · intro s s' p hp h
    obtain ⟨hr, hc, -, rfl⟩ | ⟨hr, -, -, hc, -, rfl⟩ | ⟨hr, -, -, hc, -, rfl⟩ | ⟨hr, -, hc, -, rfl⟩ :=
      step_transfer_cases hp h <;> simp [hr, hc]
  · intro s v w hready
    refine ⟨_, hready.exec_eq _, ?_, ?_⟩
    · exact packNibbles_fields v
    · exact strengthByte_byte w

/-- Settles O5: the position is sound after every step (`State.Inv.step_posSound`); its change in each kind of step is
the one EMIT, ACCEPT, RESET or HOLD makes. -/
theorem positionCounterRule : Obligations.PositionCounterRule := by
  refine ⟨rfl, ?_⟩
  intro s s' p hinv hp h
  obtain ⟨hle, hidle⟩ := hinv.step_posSound h
  refine ⟨hle, hidle, ?_⟩
  obtain ⟨hr, hc, ht, rfl⟩ | ⟨hr, -, -, hc, ht, rfl⟩ | ⟨hr, hs, -, hc, ht, rfl⟩ | ⟨hr, -, hc, ht, rfl⟩ :=
    step_transfer_cases hp h
  · simp [hr, hc, ht]
  · simp [hr, hc, ht]
  · have hpos : s.pos.toNat ≤ 59 := (hinv.posSound hs).1
    have hnext : s.pos.toNat ≠ 59 → (emitChar s.advance).pos.toNat = s.pos.toNat + 1 :=
      fun hne => emitChar_pos_next (s := s.advance) (hpos.lt_of_ne hne)
    have hlast : s.pos.toNat = 59 → (emitChar s.advance).pos = 0 :=
      fun h59 => emitChar_pos_last (s := s.advance) h59
    simpa [hr, hc, ht] using ⟨hnext, hlast⟩
  · simp [hr, hc, ht]

/-- Settles O1: the two bytes are constants of every state, so no step can change them. -/
theorem identifierBytesAreHardwired : Obligations.IdentifierBytesAreHardwired := by
  intro s
  refine ⟨s.frame_b0, s.frame_b1, ⟨?_, s.deviceIdView_eq⟩, fun s' _ => ⟨?_, ?_⟩⟩
  · rw [s.frame_b0, s.frame_b1]; rfl
  · rw [s.frame_b0, s'.frame_b0]
  · rw [s.frame_b1, s'.frame_b1]

/-- Settles O2: the view recomputes the sum in every state. -/
theorem checksumByteFollowsTheOtherFour : Obligations.ChecksumByteFollowsTheOtherFour :=
  fun s => ⟨s.frame_b4_toNat, s.frame_b4_toNat⟩

end Sys2Proof.Machine

/-! PROOFS. 20_memory.md: the frame bit at an index split into byte and bit, against the frame word and the fields, and
the statement O14. -/

namespace Sys2Proof.Machine

/-! ### A frame bit by byte and bit -/

/-- The stream index of bit `j` of byte `k`, most significant first (R32). -/
theorem Frame.fbit_byte (f : Frame) (k : Nat) {j : Nat} (hj : j < 8) :
    f.fbit (8 * k + j) = (f.byte k).getLsbD (7 - j) := by
  have hdiv : (8 * k + j) / 8 = k := by omega
  have hmod : (8 * k + j) % 8 = j := by omega
  rw [Frame.fbit, hdiv, hmod]

/-- A frame bit as a digit of its byte (R32). -/
theorem Frame.fbit_toNat (f : Frame) (i : Nat) :
    (f.fbit i).toNat = (f.byte (i / 8)).toNat / 2 ^ (7 - i % 8) % 2 :=
  Nat.toNat_testBit _ _

/-- Byte `k` stands in the frame word `8 * (4 - k)` bits above the least significant bit (R15). -/
theorem Frame.word40_extract_byte (f : Frame) {k : Nat} (hk : k < 5) :
    f.word40.extractLsb' (8 * (4 - k)) 8 = f.byte k := by
  have h := f.ofWord_word40
  interval_cases k
  · exact congrArg Frame.b0 h
  · exact congrArg Frame.b1 h
  · exact congrArg Frame.b2 h
  · exact congrArg Frame.b3 h
  · exact congrArg Frame.b4 h

/-- Stream order is the frame word from its most significant bit (R32). -/
theorem Frame.fbit_eq_word40 (f : Frame) {i : Nat} (hi : i < 40) :
    f.fbit i = f.word40.getLsbD (39 - i) := by
  have hk : i / 8 < 5 := by omega
  have hb : 7 - i % 8 < 8 := by omega
  have hidx : 39 - i = 8 * (4 - i / 8) + (7 - i % 8) := by omega
  rw [Frame.fbit, ← f.word40_extract_byte hk, BitVec.getLsbD_extractLsb', hidx]
  simp [hb]

/-! ### The fields in stream order -/

/-- The first sixteen stream bits are bytes 0 and 1 (R32). -/
theorem Frame.fbit_upper (f : Frame) {j : Nat} (hj : j < 16) :
    f.fbit j = (f.b0 ++ f.b1).getLsbD (15 - j) := by
  have hlt : 15 - j < 16 := by omega
  have hidx : 39 - j = 24 + (15 - j) := by omega
  rw [f.fbit_eq_word40 (by omega), ← f.word40_upper, BitVec.getLsbD_extractLsb', hidx]
  simp [hlt]

/-- The two identifier bytes joined are the identifier (R80). -/
theorem idHi_append_idLo : idHi ++ idLo = deviceId := rfl

/-- The bits of byte 2, least significant first (R81). -/
theorem packNibbles_getLsbD (ch md : Nibble) (b : Nat) :
    (packNibbles ch md).getLsbD b = if b < 4 then md.getLsbD b else ch.getLsbD (b - 4) :=
  BitVec.getLsbD_append

/-- The upper half of byte 2 is the channel (R81). -/
theorem packNibbles_getLsbD_channel (ch md : Nibble) (b : Nat) :
    (packNibbles ch md).getLsbD (4 + b) = ch.getLsbD b := by
  rw [packNibbles_getLsbD, if_neg (by omega), Nat.add_sub_cancel_left]

/-- The lower half of byte 2 is the mode (R81). -/
theorem packNibbles_getLsbD_mode (ch md : Nibble) {b : Nat} (hb : b < 4) :
    (packNibbles ch md).getLsbD b = md.getLsbD b := by
  rw [packNibbles_getLsbD, if_pos hb]

/-- The strength byte may be reduced before it is packed (R82). -/
theorem strengthByte_mod (st : Nat) : BitVec.ofNat 8 (st % 256) = strengthByte st :=
  BitVec.eq_of_toNat_eq (by simp)

section
variable (ch md : Nibble) (st : Nat) {j : Nat}

/-- Stream bits 0 to 15 are the identifier, both bytes of it together (R32, R80). -/
theorem frame_fbit_identifier (hj : j < 16) :
    (frame ch md st).fbit j = deviceId.getLsbD (15 - j) := by
  rw [Frame.fbit_upper _ hj, ← idHi_append_idLo]; rfl

/-- Stream bits 16 to 19 are the upper half of byte 2 (R32, R81). -/
theorem frame_fbit_channel (hj : j < 4) :
    (frame ch md st).fbit (16 + j) = ch.getLsbD (3 - j) := by
  have hidx : 7 - j = 4 + (3 - j) := by omega
  rw [← packNibbles_getLsbD_channel ch md, ← hidx]
  exact Frame.fbit_byte _ 2 (by omega)

/-- Stream bits 20 to 23 are the lower half of byte 2 (R32, R81). -/
theorem frame_fbit_mode (hj : j < 4) :
    (frame ch md st).fbit (20 + j) = md.getLsbD (3 - j) := by
  have hidx : 7 - (4 + j) = 3 - j := by omega
  have hpos : 20 + j = 8 * 2 + (4 + j) := by omega
  rw [← packNibbles_getLsbD_mode ch md (by omega), ← hidx, hpos]
  exact Frame.fbit_byte _ 2 (by omega)

/-- Stream bits 24 to 31 are byte 3 (R32, R82). -/
theorem frame_fbit_strength (hj : j < 8) :
    (frame ch md st).fbit (24 + j) = (strengthByte st).getLsbD (7 - j) :=
  Frame.fbit_byte _ 3 hj

end

/-! ### The statement -/

/-- Settles O14: an index splits into byte and bit (`Frame.fbit_byte`), the bytes stand in the frame word from the top
(`Frame.word40_extract_byte`), and each field is one or two of the bytes or half of one. -/
theorem frameBitOrder : Obligations.FrameBitOrder := by
  refine ⟨fun f i hi => ⟨f.fbit_toNat i, rfl, f.fbit_eq_word40 hi⟩, fun ch md st j => ?_⟩
  refine ⟨frame_fbit_identifier ch md st, frame_fbit_channel ch md st, frame_fbit_mode ch md st, ?_,
    Frame.fbit_byte _ 4⟩
  rw [strengthByte_mod]
  exact frame_fbit_strength ch md st

end Sys2Proof.Machine

/-! PROOFS. 30_encoding.md: the fields of a command's frame word, one command under several names, and the statements
O16 and O27. -/

namespace Sys2Proof.Machine

/-! ### Bytes and fields of the frame word -/

section
variable (f : Frame)

/-- Byte 2 in bits 23 to 16 of the frame word (R15). -/
theorem Frame.word40_b2 : f.word40.extractLsb' 16 8 = f.b2 :=
  f.word40_extract_byte (k := 2) (by decide)

/-- Byte 3 in bits 15 to 8 of the frame word (R15). -/
theorem Frame.word40_b3 : f.word40.extractLsb' 8 8 = f.b3 :=
  f.word40_extract_byte (k := 3) (by decide)

/-- Byte 4 in bits 7 to 0 of the frame word (R15). -/
theorem Frame.word40_b4 : f.word40.extractLsb' 0 8 = f.b4 :=
  f.word40_extract_byte (k := 4) (by decide)

/-- Bits 23 to 8 of the frame word are bytes 2 and 3 (R15). -/
theorem Frame.word40_middle : f.word40.extractLsb' 8 16 = f.b2 ++ f.b3 := by
  rw [← f.word40_b2, ← f.word40_b3]
  exact (BitVec.extractLsb'_append_extractLsb'_eq_extractLsb' (start₁ := 8) (len₁ := 8) (len₂ := 8) rfl).symm

/-- A field of byte 2 stands in the frame word 16 bits above its place in the byte (R12, R15). -/
theorem Frame.word40_field_of_b2 {lo len : Nat} (h : lo + len ≤ 8) :
    f.word40.extractLsb' (16 + lo) len = f.b2.extractLsb' lo len := by
  rw [← f.word40_b2]
  ext j hj
  have hbit : lo + j < 8 := by omega
  simp [hbit, Nat.add_assoc]

/-- `CH` in bits 23 to 20 of the frame word (R12, R15). -/
theorem Frame.word40_channel : f.word40.extractLsb' 20 4 = channelField f.b2 :=
  f.word40_field_of_b2 (lo := 4) (by decide)

/-- `MD` in bits 19 to 16 of the frame word (R12, R15). -/
theorem Frame.word40_mode : f.word40.extractLsb' 16 4 = modeField f.b2 :=
  f.word40_field_of_b2 (lo := 0) (by decide)

end

/-! ### The bytes of a command's frame -/

section
variable (ch md : Nibble) (st : Nat)

@[simp] theorem frame_b0 : (frame ch md st).b0 = 0xDD := rfl
@[simp] theorem frame_b1 : (frame ch md st).b1 = 0xC8 := rfl
@[simp] theorem frame_b2 : (frame ch md st).b2 = packNibbles ch md := rfl
@[simp] theorem frame_b3 : (frame ch md st).b3 = strengthByte st := rfl

/-- Byte 4 of a command's frame in terms of its operands (R90). -/
theorem frame_b4_toNat :
    (frame ch md st).b4.toNat =
      (0xDD + 0xC8 + (ch.toNat * 16 + md.toNat) + st % 256) % 256 := by
  rw [← packNibbles_toNat, ← strengthByte_toNat]
  exact csum_toNat idHi idLo (packNibbles ch md) (strengthByte st)

end

/-! ### The fields of a command's frame word -/

section
variable (i : Instr)

/-- The identifier in bits 39 to 24 (R46). -/
theorem encodeWord_identifier : (encodeWord i).extractLsb' 24 16 = 0xDDC8 := by
  rw [encodeWord, Frame.word40_upper, frame_b0, frame_b1]; rfl

/-- The channel in bits 23 to 20 (R46). -/
theorem encodeWord_channel : (encodeWord i).extractLsb' 20 4 = i.channel := by
  rw [encodeWord, Frame.word40_channel, frame_b2, channelField_packNibbles]

/-- The mode in bits 19 to 16 (R46). -/
theorem encodeWord_mode : (encodeWord i).extractLsb' 16 4 = i.mode := by
  rw [encodeWord, Frame.word40_mode, frame_b2, modeField_packNibbles]

/-- The strength byte in bits 15 to 8 (R46). -/
theorem encodeWord_strength : (encodeWord i).extractLsb' 8 8 = strengthByte i.strength := by
  rw [encodeWord, Frame.word40_b3, frame_b3]

/-- The checksum byte in bits 7 to 0 (R46). -/
theorem encodeWord_checksum :
    (encodeWord i).extractLsb' 0 8 = (frame i.channel i.mode i.strength).b4 :=
  Frame.word40_b4 _

/-- The command word in bits 23 to 8 (R45, R46). -/
theorem encodeWord_cmd16 :
    (encodeWord i).extractLsb' 8 16 = cmd16 i.channel i.mode i.strength := by
  rw [encodeWord, Frame.word40_middle, frame_b2, frame_b3, cmd16]

end

/-! ### One command under several names, and its next state -/

section
variable {i j : Instr}

/-- Commands with the same operands have the same effect in every state, whatever their names (R62, R63). -/
theorem exec_congr_operands (hch : i.channel = j.channel) (hmd : i.mode = j.mode)
    (hst : i.strength = j.strength) (s : State) : exec i s = exec j s := by
  rw [exec_eq_presentCommand, exec_eq_presentCommand, hch, hmd, hst]

/-- Commands with the same operands have the same encoding, whatever their names (R62, R63). -/
theorem encode_congr_operands (hch : i.channel = j.channel) (hmd : i.mode = j.mode)
    (hst : i.strength = j.strength) : encode i = encode j := by
  rw [encode, encode, hch, hmd, hst]

end

/-- Byte 2 as the spec computes it (R81). -/
theorem ofNat_packNibbles (ch md : Nibble) :
    BitVec.ofNat 8 (ch.toNat * 16 + md.toNat) = packNibbles ch md := by
  rw [← packNibbles_toNat, BitVec.ofNat_toNat, BitVec.setWidth_eq]

/-- The whole next state of a ready block, with the frame bytes as the spec computes them (R81, R82, R122). -/
theorem State.ready.exec_next {s : State} (h : s.ready) (i : Instr) :
    exec i s = .next
      { s with
        f2 := BitVec.ofNat 8 (i.channel.toNat * 16 + i.mode.toNat)
        f3 := BitVec.ofNat 8 (i.strength % 256), pos := 0, busy := true, fvalid := true } := by
  rw [h.exec_eq, ofNat_packNibbles, strengthByte_mod]; rfl

/-! ### The statements -/

/-- Settles O16: the identifier and the command word are pairs of frame bytes, strength and checksum one byte each, and
channel and mode the halves of byte 2. -/
theorem frameFieldLayout : Obligations.FrameFieldLayout := by
  refine fun i =>
    ⟨encodeWord_identifier i, encodeWord_channel i, encodeWord_mode i, ?_, ?_, encodeWord_cmd16 i⟩
  · rw [encodeWord_strength, strengthByte_toNat]
  · rw [encodeWord_checksum, frame_b4_toNat]

/-- Settles O27: a ready block takes TRANSMIT as any command, and its operands are those of SHOCK CH01 and of ENC 0, 1. -/
theorem transmitCompletes : Obligations.TransmitCompletes := by
  refine ⟨fun st s hready => hready.exec_next (.transmit st), fun st s => ⟨?_, ?_⟩, fun st => ⟨?_, ?_⟩⟩
  · exact exec_congr_operands rfl rfl rfl s
  · exact exec_congr_operands rfl rfl rfl s
  · exact encode_congr_operands rfl rfl rfl
  · exact encode_congr_operands rfl rfl rfl

end Sys2Proof.Machine

/-! PROOFS. 40_commands.md: the checksum and the row match of a command by its mode, and the statements O23, O24, O25. -/

namespace Sys2Proof.Machine

/-! ### What the mode decides in the frame of a command -/

/-- Byte 4 of a command's frame with the identifier and the mode summed first: the form of R71 to R73. -/
theorem frame_b4_toNat_of_mode (ch md : Nibble) (st : Nat) :
    (frame ch md st).b4.toNat = (0xA5 + md.toNat + ch.toNat * 16 + st % 256) % 256 := by
  rw [frame_b4_toNat]; omega

/-- The lower half of byte 2 is the mode without the channel (R12, R81). -/
theorem packNibbles_and_lower (ch md : Nibble) : packNibbles ch md &&& 0x0F = packNibbles 0 md := by
  revert ch md; decide

/-- A frame word is masked byte by byte (R15). -/
theorem Frame.word40_and (f g : Frame) :
    f.word40 &&& g.word40 =
      (Frame.mk (f.b0 &&& g.b0) (f.b1 &&& g.b1) (f.b2 &&& g.b2) (f.b3 &&& g.b3) (f.b4 &&& g.b4)).word40 := by
  have hbytes : (f.b0 ++ f.b1 ++ f.b2 ++ f.b3 ++ f.b4) &&& (g.b0 ++ g.b1 ++ g.b2 ++ g.b3 ++ g.b4) =
      (f.b0 &&& g.b0) ++ (f.b1 &&& g.b1) ++ (f.b2 &&& g.b2) ++ (f.b3 &&& g.b3) ++ (f.b4 &&& g.b4) := by
    simp only [BitVec.and_append]
  exact hbytes

/-- Under the mask of the rows SHOCK, VIBRATE and BEEP, a command's frame word holds the identifier and the mode and
nothing else (R51). -/
theorem frame_word40_and_modeRowMask (ch md : Nibble) (st : Nat) :
    (frame ch md st).word40 &&& 0xFFFF0F0000 = (Frame.mk 0xDD 0xC8 (packNibbles 0 md) 0#8 0#8).word40 := by
  have hmask : (0xFFFF0F0000 : BitVec 40) =
      (Frame.mk (BitVec.allOnes 8) (BitVec.allOnes 8) 0x0F 0#8 0#8).word40 := by decide
  rw [hmask, Frame.word40_and]
  simp only [frame_b0, frame_b1, frame_b2, packNibbles_and_lower, BitVec.and_allOnes, BitVec.and_zero]

/-! ### The statements -/

/-- Settles O23: a ready block takes SHOCK as any command, its operands are those of ENC with mode 1, and the mode alone
decides the constant of the checksum and the row. -/
theorem shockCompletes : Obligations.ShockCompletes := by
  refine ⟨fun ch st s hready => hready.exec_next (.shock ch st), fun ch st => ⟨?_, ?_⟩,
    fun ch st => exec_congr_operands rfl rfl rfl, rfl, rfl, rfl, rfl⟩
  · exact frame_b4_toNat_of_mode ch 1 st
  · exact (frame_word40_and_modeRowMask ch 1 st).trans (by decide)

/-- Settles O24: a ready block takes VIBRATE as any command, its operands are those of ENC with mode 2, and the mode alone
decides the constant of the checksum and the row. -/
theorem vibrateCompletes : Obligations.VibrateCompletes := by
  refine ⟨fun ch st s hready => hready.exec_next (.vibrate ch st), fun ch st => ⟨?_, ?_⟩,
    fun ch st => exec_congr_operands rfl rfl rfl, rfl, rfl⟩
  · exact frame_b4_toNat_of_mode ch 2 st
  · exact (frame_word40_and_modeRowMask ch 2 st).trans (by decide)

/-- Settles O25: a ready block takes BEEP as any command, its operands are those of ENC with mode 3, and the mode alone
decides the constant of the checksum and the row. -/
theorem beepCompletes : Obligations.BeepCompletes := by
  refine ⟨fun ch st s hready => hready.exec_next (.beep ch st), fun ch st => ⟨?_, ?_⟩,
    fun ch st => exec_congr_operands rfl rfl rfl, rfl⟩
  · exact frame_b4_toNat_of_mode ch 3 st
  · exact (frame_word40_and_modeRowMask ch 3 st).trans (by decide)

end Sys2Proof.Machine

/-! PROOFS. 41_packing.md: reading channel and mode back from byte 2, the strength in byte 3, and the statements O30 and
O31. -/

namespace Sys2Proof.Machine

/-! ### Byte 2 -/

section
variable (b : Byte)

/-- Shifting byte 2 right by four gives `CH` (R12, R83). -/
theorem toNat_shiftRight_four : b.toNat >>> 4 = (channelField b).toNat := by
  rw [channelField_toNat]
  exact Nat.shiftRight_eq_div_pow b.toNat 4

/-- Masking byte 2 with 0xF gives `MD` (R12, R83). -/
theorem toNat_and_fifteen : b.toNat &&& 0xF = (modeField b).toNat := by
  rw [modeField_toNat]
  exact Nat.and_two_pow_sub_one_eq_mod b.toNat 4

end

/-- Different pairs of channel and mode have different bytes: each field is read back from the byte (R83). -/
theorem packNibbles_inj {ch md ch' md' : Nibble} (h : packNibbles ch md = packNibbles ch' md') :
    ch = ch' ∧ md = md' := by
  constructor
  · rw [← channelField_packNibbles ch md, h, channelField_packNibbles]
  · rw [← modeField_packNibbles ch md, h, modeField_packNibbles]

/-! ### Byte 3 -/

/-- Byte 3 of a command's frame as a number (R82). -/
theorem frame_b3_toNat (ch md : Nibble) (st : Nat) : (frame ch md st).b3.toNat = st % 256 := by
  rw [frame_b3, strengthByte_toNat]

/-- Byte 3 is the byte that holds the strength modulo 256 (R82). -/
theorem frame_b3_eq {ch md : Nibble} {st : Nat} {b : Byte} (h : st % 256 = b.toNat) :
    (frame ch md st).b3 = b :=
  BitVec.eq_of_toNat_eq ((frame_b3_toNat ch md st).trans h)

/-! ### The statements -/

/-- Settles O30: shift and mask give the two fields of byte 2, and the fields are the packed pair. -/
theorem packedNibblesReadBack : Obligations.PackedNibblesReadBack := by
  refine ⟨fun ch md => ?_, fun ch md ch' md' => packNibbles_inj⟩
  have hch := channelField_packNibbles ch md
  have hmd := modeField_packNibbles ch md
  refine ⟨?_, ?_, hch, hmd⟩
  · rw [toNat_shiftRight_four, hch]
  · rw [toNat_and_fifteen, hmd]

/-- Settles O31: byte 3 is the strength modulo 256 (`frame_b3_toNat`), which is the strength itself below 256; the
corner cases are residues of numerals. -/
theorem strengthWrapsOnlyAtTheByte : Obligations.StrengthWrapsOnlyAtTheByte := by
  refine ⟨frame_b3_toNat, fun ch md st hst => ?_, fun ch md => ?_⟩
  · rw [frame_b3_toNat, Nat.mod_eq_of_lt hst]
  · refine ⟨?_, ?_, ?_, ?_, ?_, ?_, ?_, ?_⟩ <;> exact frame_b3_eq (by decide)

end Sys2Proof.Machine

/-! PROOFS. 42_checksum.md: the checksum as the constant of the identifier plus the two command bytes, and the statement
O35. -/

namespace Sys2Proof.Machine

/-! ### The checksum of the two command bytes -/

/-- Byte 4 with the identifier bytes summed to their constant (R90, R92). -/
theorem frameOf_b4_toNat (b2 b3 : Byte) :
    (frameOf b2 b3).b4.toNat = (0x1A5 + (b2.toNat + b3.toNat)) % 256 := by
  have hsum : (frameOf b2 b3).b4.toNat = (0xDD + 0xC8 + b2.toNat + b3.toNat) % 256 :=
    csum_toNat idHi idLo b2 b3
  rw [hsum, Nat.add_assoc]

/-- The constant of the identifier cancels: the sum of bytes 2 and 3 modulo 256 is all the checksum tells (R94). -/
theorem frameOf_b4_eq_iff (b2 b3 c2 c3 : Byte) :
    (frameOf b2 b3).b4 = (frameOf c2 c3).b4 ↔ b2.toNat + b3.toNat ≡ c2.toNat + c3.toNat [MOD 256] := by
  rw [← BitVec.toNat_inj, frameOf_b4_toNat, frameOf_b4_toNat]
  exact Nat.ModEq.add_iff_left (Nat.ModEq.refl 0x1A5)

/-! ### The statement -/

/-- Settles O35: the identifier adds the same constant to every checksum, so it cancels (`frameOf_b4_eq_iff`); the
printed pair has 0x01 + 0x10 = 0x11 + 0x00. -/
theorem checksumCollisions : Obligations.ChecksumCollisions :=
  ⟨frameOf_b4_eq_iff, rfl, rfl⟩

end Sys2Proof.Machine

/-! PROOFS. 45_sequencer.md: each kind of step under the condition that selects it, the two handshakes as equivalences,
a block that holds for ever, and the statements O43 to O46, O48, O49 and O52. -/

namespace Sys2Proof.Machine

/-! ### The sampled inputs -/

/-- Two-valued inputs on the ports are sampled as they are, out of reset or in a RESET step (R21). -/
theorem inputs_of_drive {s : State} {p : Inputs} (hd : s.drive = p.drive)
    (h : (p.rst || s.resetSeen) = true) : s.inputs = .ok p := by
  simp [State.inputs, hd, h]

/-- Out of reset, the step sees the scheduled inputs. -/
theorem inputs_scheduled_of_resetSeen {s : State} (p : Inputs) (hs : s.resetSeen = true) :
    (s.scheduled [p]).inputs = .ok p :=
  inputs_scheduled s p [] (by simp [hs])

/-- A RESET step sees its scheduled inputs in every state. -/
theorem inputs_scheduled_of_rst (s : State) {p : Inputs} (hr : p.rst = true) :
    (s.scheduled [p]).inputs = .ok p :=
  inputs_scheduled s p [] (by simp [hr])

/-- Once the script is used up, advancing changes nothing (log 1). -/
theorem State.advance_of_script_nil {s : State} (h : s.script = []) : s.advance = s := by
  cases s; cases h; rfl

/-! ### Each kind of step: its next state, and the command and the character it transfers -/

section
variable {s : State} {p : Inputs}

/-- RESET transfers nothing (R121). -/
theorem step_of_reset (hp : s.inputs = .ok p) (hr : p.rst = true) :
    step s = .next (resetBlock s.advance) ∧ s.commandTransfer = none ∧ s.charTransfer = none := by
  rw [commandTransfer_of_inputs hp, charTransfer_of_inputs hp]
  simp [step, hp, stepKind, hr]

/-- ACCEPT transfers the command on the port (R122). -/
theorem step_of_accept (hp : s.inputs = .ok p) (hready : s.ready) (hr : p.rst = false)
    (hv : p.cmdValid = true) :
    step s = .next (acceptCommand p.cmdChannel p.cmdMode p.cmdStrength s.advance) ∧
      s.commandTransfer = some ⟨p.cmdChannel, p.cmdMode, p.cmdStrength⟩ ∧ s.charTransfer = none := by
  obtain ⟨hs, hb⟩ := hready
  rw [commandTransfer_of_inputs hp, charTransfer_of_inputs hp]
  simp [step, hp, stepKind, exec_decodeCommand, presentCommand, hs, hb, hr, hv]

/-- EMIT transfers the character at the stream position (R123). -/
theorem step_of_emit (hp : s.inputs = .ok p) (hb : s.busy = true) (hr : p.rst = false)
    (hy : p.symReady = true) :
    step s = .next (emitChar s.advance) ∧ s.commandTransfer = none ∧
      s.charTransfer = some ⟨s.symChar, s.symLast⟩ := by
  rw [commandTransfer_of_inputs hp, charTransfer_of_inputs hp]
  simp [step, hp, stepKind, hb, hr, hy]

/-- HOLD transfers nothing, and uses up the sample only (R124). -/
theorem step_of_hold (hp : s.inputs = .ok p) (hr : p.rst = false)
    (h : (s.busy = false ∧ p.cmdValid = false) ∨ (s.busy = true ∧ p.symReady = false)) :
    step s = .next s.advance ∧ s.commandTransfer = none ∧ s.charTransfer = none := by
  rw [commandTransfer_of_inputs hp, charTransfer_of_inputs hp]
  obtain ⟨hb, hv⟩ | ⟨hb, hy⟩ := h
  · simp [step, hp, stepKind, hr, hb, hv]
  · simp [step, hp, stepKind, hr, hb, hy]

/-! ### The two handshakes -/

/-- Which command is transferred, and when (R126). -/
theorem commandTransfer_eq_some_iff (hp : s.inputs = .ok p) {c : CommandTransfer} :
    s.commandTransfer = some c ↔
      p.cmdValid = true ∧ s.cmdReady = true ∧ p.rst = false ∧
        c = ⟨p.cmdChannel, p.cmdMode, p.cmdStrength⟩ := by
  rw [commandTransfer_of_inputs hp]
  simp [State.cmdReady, and_assoc, eq_comm (a := c)]

/-- Which character is transferred, and when (R127). -/
theorem charTransfer_eq_some_iff (hp : s.inputs = .ok p) {x : CharTransfer} :
    s.charTransfer = some x ↔
      s.symValid = true ∧ p.symReady = true ∧ p.rst = false ∧ x = ⟨s.symChar, s.symLast⟩ := by
  rw [charTransfer_of_inputs hp]
  simp [State.symValid, and_assoc, eq_comm (a := x)]

/-- A character is transferred exactly when it is offered, taken and not voided by RESET (R127). -/
theorem charTransfer_isSome_iff (hp : s.inputs = .ok p) :
    s.charTransfer.isSome ↔ s.symValid = true ∧ p.symReady = true ∧ p.rst = false := by
  rw [Option.isSome_iff_exists]
  simp [charTransfer_eq_some_iff hp]

end

/-! ### The symbol port -/

section
variable {s : State}

/-- While streaming, `sym_last` marks position 59 (R22). -/
theorem State.symLast_of_busy (hb : s.busy = true) : s.symLast = decide (s.pos.toNat = 59) := by
  rw [State.symLast, hb, Bool.true_and, beq_eq_decide, decide_eq_decide, pos_eq_59]

/-- The first stream bit is the most significant bit of the identifier, which is 1 (R32, R80). -/
theorem State.frame_fbit_zero (s : State) : s.frame.fbit 0 = true := by
  rw [Frame.fbit_upper _ (by decide), State.frame_b0, State.frame_b1]; rfl

/-- Every payload begins with 'E' (R122). -/
theorem State.symChar_of_pos_eq_zero (h : s.pos = 0) : s.symChar = symOne := by
  simp [State.symChar, h, charAt, sym, s.frame_fbit_zero]

/-- The code of the first character (R57, R122). -/
theorem State.symData_of_pos_eq_zero (h : s.pos = 0) : s.symData = 0x45 := by
  rw [State.symData, State.symChar_of_pos_eq_zero h]; rfl

/-- EMIT of the last character leaves the block idle at position 0 (R123). -/
theorem emitChar_of_last (h : s.pos.toNat = 59) : emitChar s = { s with pos := 0, busy := false } := by
  rw [emitChar, if_pos ((pos_eq_59 _).2 h)]; rfl

/-- EMIT of any other character moves the position and nothing else (R123). -/
theorem emitChar_of_not_last (h : s.pos.toNat ≠ 59) :
    emitChar s = { s with pos := BitVec.ofNat 6 (s.pos.toNat + 1) } := by
  rw [emitChar, if_neg (fun h59 => h ((pos_eq_59 _).1 h59))]; rfl

end

/-! ### A step that changes nothing, repeated -/

section
variable {s : State} (h : step s = .next s) (n : Nat)
include h

/-- A state that one step keeps is kept by any number of steps. -/
theorem runSteps_of_step_self : runSteps n s = .next s := by
  induction n with
  | zero => rfl
  | succ n ih => rw [runSteps, h]; exact ih

/-- A state that one step keeps shows the same in every step. -/
theorem observations_of_step_self : observations n s = List.replicate n s.observe := by
  induction n with
  | zero => rfl
  | succ n ih => rw [observations, h, List.replicate_succ, ← ih]

/-- A kept state that transfers no character in one step transfers none in any number of steps. -/
theorem transfers_of_step_self (hc : s.charTransfer = none) : transfers n s = [] := by
  rw [transfers, observations_of_step_self h]
  exact List.filterMap_replicate_of_none hc

/-- A kept state that accepts no command in one step accepts none in any number of steps. -/
theorem commandsAccepted_of_step_self (hc : s.commandTransfer = none) : commandsAccepted n s = [] := by
  rw [commandsAccepted, observations_of_step_self h]
  exact List.filterMap_replicate_of_none hc

end

/-! ### The statements -/

/-- Settles O45: the step is EMIT, its mark is that of position 59, and the next position is looked up in
`emitChar_of_last` and `emitChar_of_not_last`. -/
theorem emitStep : Obligations.EmitStep := by
  rintro s p ⟨hs, hb, hle⟩ hr hy
  obtain ⟨hstep, hcmd, hchar⟩ := step_of_emit (inputs_scheduled_of_resetSeen p hs) hb hr hy
  refine ⟨?_, rfl, hcmd, fun hlast => ?_, fun hne => ⟨?_, ?_⟩⟩
  · rw [hchar, State.symLast_of_busy (s := s.scheduled [p]) hb]; rfl
  · rw [hstep, State.scheduled_cons_advance, State.scheduled_nil, emitChar_of_last hlast]
  · rw [hstep, State.scheduled_cons_advance, State.scheduled_nil, emitChar_of_not_last hne]
  · exact hle.lt_of_ne hne

/-- Settles O48: the handshake is `charTransfer_eq_some_iff`, and of the kinds of step only HOLD leaves an offer neither
taken nor voided. -/
theorem symbolOfferStandsUntilTaken : Obligations.SymbolOfferStandsUntilTaken := by
  intro s s' p _ _ hp h
  refine ⟨charTransfer_isSome_iff hp, fun x hx => ?_, fun hoffer hnone hr => ?_⟩
  · obtain ⟨hb, -, -, rfl⟩ := (charTransfer_eq_some_iff hp).1 hx
    refine ⟨rfl, ?_⟩
    rw [State.symLast_of_busy hb, decide_eq_true_iff]
  · obtain ⟨hreset, -⟩ | ⟨-, -, hidle, -⟩ | ⟨-, -, -, -, htaken, -⟩ | ⟨-, -, -, -, rfl⟩ :=
      step_transfer_cases hp h
    · exact absurd hreset (by simp [hr])
    · exact absurd (hidle.symm.trans hoffer) (by decide)
    · exact absurd (hnone.symm.trans htaken) (by simp)
    · exact ⟨hoffer, rfl, rfl⟩

/-- Settles O49: the handshake is `commandTransfer_eq_some_iff`, and a busy block does EMIT or HOLD, neither of which
writes the frame. -/
theorem commandHandshake : Obligations.CommandHandshake := by
  intro s p c hs
  have hp := inputs_scheduled_of_resetSeen p hs
  refine ⟨commandTransfer_eq_some_iff hp, fun _ hnotReady hr => ?_⟩
  have hb : s.busy = true := by simpa [State.outputs, State.cmdReady] using hnotReady
  cases hy : p.symReady with
  | true => exact ⟨_, (step_of_emit hp hb hr hy).1, by simp, by simp⟩
  | false => exact ⟨_, (step_of_hold hp hr (.inr ⟨hb, hy⟩)).1, by simp, by simp⟩

/-- Settles O52: with the script used up every step is the same HOLD, which keeps the whole state. -/
theorem noTimeout : Obligations.NoTimeout := by
  rintro s p n ⟨hs, hb, -⟩ hscript hrest hr hy
  have hdrive : s.drive = p.drive := by rw [State.drive, hscript]; exact hrest
  have hp : s.inputs = .ok p := inputs_of_drive hdrive (by simp [hs])
  obtain ⟨hstep, hcmd, hchar⟩ := step_of_hold hp hr (.inr ⟨hb, hy⟩)
  rw [State.advance_of_script_nil hscript] at hstep
  refine ⟨runSteps_of_step_self hstep n, transfers_of_step_self hstep n hchar,
    commandsAccepted_of_step_self hstep n hcmd, ?_⟩
  simp [State.outputs, State.cmdReady, hb]

/-- Settles O43: the step is RESET in every state, and the reset state is its own reset. -/
theorem resetStep : Obligations.ResetStep :=
  ⟨fun s _ hr => step_of_reset (inputs_scheduled_of_rst s hr) hr,
    fun _ hr => (step_of_reset (inputs_scheduled_of_rst State.reset hr) hr).1⟩

/-- Settles O44: the step is ACCEPT, whose next state stands at position 0 with the frame of the command. -/
theorem acceptStep : Obligations.AcceptStep := by
  intro s p hready hr hv
  obtain ⟨hstep, hcmd, hchar⟩ :=
    step_of_accept (inputs_scheduled_of_resetSeen p hready.1) hready hr hv
  refine ⟨_, hstep, ?_, rfl, rfl, State.symData_of_pos_eq_zero rfl, rfl, hcmd, hchar⟩
  rw [ofNat_packNibbles, strengthByte_mod]; rfl

/-- Settles O46: the step is HOLD, and the block is left as it was before the inputs were scheduled. -/
theorem holdStep_unchanged : Obligations.HoldStep :=
  fun _ p hs hr h => step_of_hold (inputs_scheduled_of_resetSeen p hs) hr h

end Sys2Proof.Machine

/-! PROOFS. 10_state.md: the invariant along steps and runs, the scheduled run as a function of the block, the output
ports, and the statements O3, O6 to O13. -/

namespace Sys2Proof.Machine

/-! ### The invariant -/

section
variable {s s' : State}

/-- The invariant from its part about POS and its two parts about FVALID (R16, R18, R24). -/
theorem State.PosSound.inv (h : s.PosSound) (hv : s.busy = true → s.fvalid = true)
    (hf : s.fvalid = false → s.f2 = 0 ∧ s.f3 = 0) : s.Inv :=
  fun _ => ⟨h.1, h.2, hv, hf⟩

/-- RESET establishes the invariant (R121). -/
theorem resetBlock_inv (s : State) : (resetBlock s).Inv :=
  (State.PosSound.of_pos_eq_zero rfl).inv (fun hb => hb) (fun _ => ⟨rfl, rfl⟩)

/-- ACCEPT establishes the invariant (R122). -/
theorem acceptCommand_inv (ch md : Nibble) (st : Nat) (s : State) : (acceptCommand ch md st s).Inv :=
  (State.PosSound.of_pos_eq_zero rfl).inv (fun _ => rfl) (fun hv => Bool.noConfusion hv)

/-- EMIT keeps the invariant: FVALID is 1 while streaming and stays (R123). -/
theorem emitChar_inv (hinv : s.Inv) (hs : s.resetSeen = true) (hb : s.busy = true) : (emitChar s).Inv := by
  obtain ⟨-, -, hvalid, -⟩ := hinv hs
  have hv : (emitChar s).fvalid = true := by rw [emitChar_fvalid, hvalid hb]
  refine (emitChar_posSound (hinv.posSound hs) hb).inv (fun _ => hv) (fun hidle => ?_)
  rw [hv] at hidle; cases hidle

/-- Every step keeps the invariant (R24). -/
theorem State.Inv.step_inv (hinv : s.Inv) (h : step s = .next s') : s'.Inv := by
  obtain ⟨p, -, hcases⟩ := step_next_cases h
  obtain ⟨-, rfl⟩ | ⟨-, -, -, -, rfl⟩ | ⟨-, hs, hb, -, rfl⟩ | ⟨-, -, -, -, rfl⟩ := hcases
  · exact resetBlock_inv _
  · exact acceptCommand_inv _ _ _ _
  · exact emitChar_inv (s := s.advance) hinv hs hb
  · exact hinv

/-- After any step the block is out of reset (R162). -/
theorem step_resetSeen (h : step s = .next s') : s'.resetSeen = true := by
  obtain ⟨p, -, hcases⟩ := step_next_cases h
  obtain ⟨-, rfl⟩ | ⟨-, hs, -, -, rfl⟩ | ⟨-, hs, -, -, rfl⟩ | ⟨-, hs, -, -, rfl⟩ := hcases
  · rfl
  · exact hs
  · rw [emitChar_resetSeen]; exact hs
  · exact hs

/-- The sampled `rst` is the level on its port (R21). -/
theorem inputs_rst {p : Inputs} (hp : s.inputs = .ok p) : s.drive.rst.read .rst = .ok p.rst :=
  (sample_ok (inputs_ok hp).1).1

/-- A step with `rst` high is RESET (R120, R121). -/
theorem step_of_rst_high (hr : s.drive.rst = .high) (h : step s = .next s') : s' = resetBlock s.advance := by
  obtain ⟨p, hp, hcases⟩ := step_next_cases h
  have hrst : p.rst = true := by
    have hread := inputs_rst hp
    rw [hr] at hread
    exact (Except.ok.inj hread).symm
  obtain ⟨-, rfl⟩ | ⟨hf, -⟩ | ⟨hf, -⟩ | ⟨hf, -⟩ := hcases
  · rfl
  all_goals rw [hrst] at hf; cases hf

/-! ### What every step keeps, every run keeps -/

/-- A run of `n + 1` steps is one step and a run of `n`. -/
theorem runSteps_succ_eq_next {n : Nat} {t : State} :
    runSteps (n + 1) s = .next t ↔ ∃ s', step s = .next s' ∧ runSteps n s' = .next t := by
  rw [runSteps]
  cases step s <;> simp

/-- A property that every step keeps holds in every state that a run reaches. -/
theorem runSteps_keeps {P : State → Prop} (hstep : ∀ a b, P a → step a = .next b → P b) {n : Nat} {t : State}
    (hs : P s) (h : runSteps n s = .next t) : P t := by
  induction n generalizing s with
  | zero => cases h; exact hs
  | succ n ih =>
    obtain ⟨s', hfirst, hrest⟩ := runSteps_succ_eq_next.1 h
    exact ih (hstep s s' hs hfirst) hrest

/-- On a streaming block no step but RESET writes `F[2]` or `F[3]` (R24). -/
theorem step_keeps_registers_of_busy (hb : s.busy = true) (hr : s.drive.rst = .low) (h : step s = .next s') :
    s'.f2 = s.f2 ∧ s'.f3 = s.f3 := by
  obtain ⟨p, hp, hcases⟩ := step_next_cases h
  obtain ⟨hrst, -⟩ | ⟨-, -, hidle, -⟩ | ⟨-, -, -, -, rfl⟩ | ⟨-, -, -, -, rfl⟩ := hcases
  · have hread := inputs_rst hp
    rw [hr, hrst] at hread; cases hread
  · rw [hb] at hidle; cases hidle
  · simp
  · simp

end

/-! ### A step on scheduled inputs as a function of the block -/

section
variable {s : State}

/-- The block after one step with these inputs, the ports left aside: the four kinds of step of R120. -/
def State.after (s : State) (p : Inputs) : State :=
  match stepKind p s with
  | .reset => resetBlock s
  | .accept => acceptCommand p.cmdChannel p.cmdMode p.cmdStrength s
  | .emit => emitChar s
  | .hold => s

/-- A block out of reset takes every scheduled step, and the inputs scheduled behind it stay. -/
theorem step_scheduled (hs : s.resetSeen = true) (p : Inputs) (ps : List Inputs) :
    step (s.scheduled (p :: ps)) = .next ((s.after p).scheduled ps) := by
  have hp := inputs_scheduled s p ps (by simp [hs])
  have hkind : stepKind p (s.scheduled (p :: ps)) = stepKind p s := rfl
  rw [step, hp, State.after]
  simp only [hkind, State.scheduled_cons_advance]
  cases hk : stepKind p s with
  | reset => rfl
  | accept =>
    have hb : s.busy = false := by
      cases hb : s.busy with
      | false => rfl
      | true => cases hr : p.rst <;> cases hy : p.symReady <;> simp [stepKind, hb, hr, hy] at hk
    simp [exec_decodeCommand, presentCommand, hs, hb, acceptCommand_scheduled]
  | emit => simp [emitChar_scheduled]
  | hold => rfl

/-- A step leaves the block out of reset. -/
theorem State.after_resetSeen (hs : s.resetSeen = true) (p : Inputs) : (s.after p).resetSeen = true := by
  unfold State.after
  split <;> simp [hs]

/-- The block with nothing on its ports: the five items of R10 and the mark of log 2. -/
def State.bare (s : State) : State := { s with script := [], rest := Drive.idle }

/-- What a step does to the block does not depend on what is scheduled behind it. -/
theorem State.after_bare (s : State) (p : Inputs) : (s.after p).bare = s.bare.after p := by
  have hkind : stepKind p s.bare = stepKind p s := rfl
  rw [State.after, State.after, hkind]
  cases stepKind p s with
  | emit =>
    by_cases h : s.pos = 59
    · rw [emitChar, if_pos h, emitChar, if_pos (show s.bare.pos = 59 from h)]; rfl
    · rw [emitChar, if_neg h, emitChar, if_neg (show ¬s.bare.pos = 59 from h)]; rfl
  | _ => rfl

/-- What can be observed of a step depends on the block and the inputs of that step (R131). -/
theorem observe_scheduled_bare (hs : s.resetSeen = true) (p : Inputs) (ps : List Inputs) :
    (s.scheduled (p :: ps)).observe = (s.bare.scheduled [p]).observe := by
  have hp := inputs_scheduled s p ps (by simp [hs])
  have hq := inputs_scheduled s.bare p [] (by simp [State.bare, hs])
  simp only [State.observe, commandTransfer_of_inputs hp, charTransfer_of_inputs hp,
    commandTransfer_of_inputs hq, charTransfer_of_inputs hq]
  rfl

/-- Two blocks that agree in their items show the same under the same inputs (R131). -/
theorem observations_scheduled_congr {a b : State} (ha : a.resetSeen = true) (hab : a.bare = b.bare)
    (ps : List Inputs) {n : Nat} (hn : n ≤ ps.length) :
    observations n (a.scheduled ps) = observations n (b.scheduled ps) := by
  have hb : b.resetSeen = true := (congrArg State.resetSeen hab).symm.trans ha
  induction ps generalizing n a b with
  | nil => rw [Nat.le_zero.1 hn]; rfl
  | cons p ps ih =>
    cases n with
    | zero => rfl
    | succ n =>
      have hafter : (a.after p).bare = (b.after p).bare := by rw [State.after_bare, hab, State.after_bare]
      rw [observations, observations, step_scheduled ha, step_scheduled hb]
      simp only [observe_scheduled_bare ha, observe_scheduled_bare hb, hab]
      rw [ih (State.after_resetSeen ha p) hafter (Nat.le_of_succ_le_succ hn) (State.after_resetSeen hb p)]

/-- ACCEPT writes every item of the block, so nothing of the state before it is left (R25). -/
theorem acceptCommand_bare {a b : State} (ha : a.resetSeen = true) (hb : b.resetSeen = true) (ch md : Nibble)
    (st : Nat) : (acceptCommand ch md st a).bare = (acceptCommand ch md st b).bare := by
  cases a; cases b; cases ha; cases hb; rfl

end

/-! ### The views and the output ports -/

section
variable (s : State)

/-- Bit 1 of STATUS (R19). -/
theorem State.status_bit_one : s.status.getLsbD 1 = s.fvalid := by
  cases hv : s.fvalid <;> cases hb : s.busy <;> simp [State.status, hv, hb]

/-- Bit 0 of STATUS (R19). -/
theorem State.status_bit_zero : s.status.getLsbD 0 = s.busy := by
  cases hv : s.fvalid <;> cases hb : s.busy <;> simp [State.status, hv, hb]

/-- The ASCII code of a symbol (R57). -/
theorem ascii_sym (b : Bool) : ascii (sym b) = if b then 0x45 else 0x38 := by
  cases b <;> rfl

/-- The code on the symbol port at each position (R22, R57, R103). -/
theorem State.symData_eq :
    s.symData =
      if s.pos.toNat % 3 = 2 then 0x20
      else if s.frame.fbit (2 * (s.pos.toNat / 3) + s.pos.toNat % 3) then 0x45 else 0x38 := by
  rw [State.symData, State.symChar, charAt]
  split
  · rfl
  · exact ascii_sym _

/-- The mark on the symbol port (R22). -/
theorem State.symLast_iff : s.symLast = true ↔ s.busy = true ∧ s.pos.toNat = 59 := by
  rw [State.symLast, Bool.and_eq_true, beq_iff_eq, pos_eq_59]

/-- The outputs of a block right after RESET do not depend on the state before (R23). -/
theorem resetBlock_outputs : (resetBlock s).outputs = State.reset.outputs := rfl

/-- The checksum byte right after RESET (R14, R23). -/
theorem resetBlock_frame_b4 : (resetBlock s).frame.b4 = 0xA5 := by
  have h : (resetBlock s).frame = State.reset.frame := rfl
  rw [h]; rfl

/-- STATUS right after RESET (R19, R23). -/
theorem resetBlock_status : (resetBlock s).status = 0 := by
  have h : (resetBlock s).status = State.reset.status := rfl
  rw [h]; rfl

/-- The outputs in the reset table (R23, R160). -/
theorem State.reset_outputs :
    State.reset.outputs = ⟨true, false, 0xDDC80000A5, false, false, 0x45, false⟩ := rfl

/-- With both registers 0 the frame is that of the reset table (R18, R23). -/
theorem State.frame_of_registers_zero {s : State} (h2 : s.f2 = 0) (h3 : s.f3 = 0) : s.frame = frameOf 0 0 := by
  rw [State.frame, h2, h3]

end

/-! ### The statements -/

/-- Settles O11: each kind of step keeps the invariant (`State.Inv.step_inv`), and a RESET step establishes it. -/
theorem invariantKeptByEveryStep : Obligations.InvariantKeptByEveryStep := by
  refine ⟨fun s s' hinv h => ⟨hinv.step_inv h, step_resetSeen h⟩, fun s s' hr h => ?_⟩
  rw [step_of_rst_high hr h]
  exact resetBlock_inv _

/-- Settles O6: BUSY in each kind of step (`step_transfer_cases`), and the outputs read it. -/
theorem busyFlagAndItsTransitions : Obligations.BusyFlagAndItsTransitions := by
  refine ⟨rfl, fun s hinv hs => ⟨rfl, fun hb => ?_, fun hb => ?_⟩, fun s s' p hp h => ?_⟩
  · exact ⟨by simp [State.outputs, State.cmdReady, hb], hb, by simp [State.outputs, State.symLast, hb],
      (hinv.posSound hs).2 hb⟩
  · exact ⟨by simp [State.outputs, State.cmdReady, hb], hb, (hinv.posSound hs).1⟩
  obtain ⟨hr, hc, ht, rfl⟩ | ⟨hr, -, hb, hc, ht, rfl⟩ | ⟨hr, -, hb, hc, ht, rfl⟩ | ⟨hr, -, hc, ht, rfl⟩ :=
    step_transfer_cases hp h
  · simp [hr, hc, ht]
  · simp [hr, hc, ht, hb]
  · by_cases h59 : s.pos = 59 <;> simp [hr, hc, ht, hb, emitChar_busy, h59]
  · simp [hr, hc, ht]

/-- Settles O7: FVALID and the frame in each kind of step (`step_transfer_cases`); by the invariant the registers are 0
while FVALID is 0. -/
theorem frameValidFlagRule : Obligations.FrameValidFlagRule := by
  refine ⟨rfl, fun s => rfl, fun s hinv hs hv => ?_, fun s s' p hp h => ?_⟩
  · obtain ⟨-, -, -, hzero⟩ := hinv hs
    obtain ⟨h2, h3⟩ := hzero hv
    have hword : s.outputs.frame = s.frame.word40 := rfl
    rw [hword, State.frame_of_registers_zero h2 h3]; rfl
  · obtain ⟨hr, hc, -, rfl⟩ | ⟨hr, -, -, hc, -, rfl⟩ | ⟨hr, -, -, hc, -, rfl⟩ | ⟨hr, -, hc, -, rfl⟩ :=
      step_transfer_cases hp h <;> simp [hr, hc]

/-- Settles O12: the first step is RESET and establishes the invariant, every later step keeps it (`runSteps_keeps`), and
the frame bytes are views of the state. -/
theorem reachableStatesAreSound : Obligations.ReachableStatesAreSound := by
  intro s t n hr h
  obtain ⟨s', hfirst, hrest⟩ := runSteps_succ_eq_next.1 h
  have hstart : s'.Inv ∧ s'.resetSeen = true :=
    ⟨step_of_rst_high hr hfirst ▸ resetBlock_inv _, step_resetSeen hfirst⟩
  obtain ⟨hinv, hs⟩ : t.Inv ∧ t.resetSeen = true :=
    runSteps_keeps (P := fun a => a.Inv ∧ a.resetSeen = true)
      (fun a b ha hab => ⟨ha.1.step_inv hab, step_resetSeen hab⟩) hstart hrest
  obtain ⟨hpos, hidle, hv, -⟩ := hinv hs
  exact ⟨hpos, hidle, hv, ⟨t.frame_b4_toNat, t.frame_b0, t.frame_b1⟩,
    fun t' hb hnext hlow => step_keeps_registers_of_busy hb hlow hnext⟩

/-- Settles O13: after ACCEPT both blocks agree in every item (`acceptCommand_bare`), and such blocks show the same under
the same inputs. -/
theorem earlierHistoryDoesNotShow : Obligations.EarlierHistoryDoesNotShow := by
  intro s₁ s₂ p ps hready₁ hready₂ hr hv
  have hafter : ∀ s : State, s.ready → s.after p = acceptCommand p.cmdChannel p.cmdMode p.cmdStrength s := by
    rintro s ⟨-, hb⟩
    simp [State.after, stepKind, hr, hv, hb]
  refine ⟨_, _, step_scheduled hready₁.1 p ps, step_scheduled hready₂.1 p ps, fun n hn => ?_⟩
  rw [hafter s₁ hready₁, hafter s₂ hready₂]
  exact observations_scheduled_congr (a := acceptCommand _ _ _ s₁) hready₁.1
    (acceptCommand_bare hready₁.1 hready₂.1 _ _ _) ps hn

/-- Settles O3: the bytes stand in the frame word from the top, and STATUS joins the two flags. -/
theorem frameViewAndStatusLayout : Obligations.FrameViewAndStatusLayout := by
  intro s
  exact ⟨s.frame.word40_extract_byte (k := 0) (by decide), s.frame.word40_extract_byte (k := 1) (by decide),
    s.frame.word40_b2, s.frame.word40_b3, s.frame.word40_b4, rfl, s.status_bit_one, s.status_bit_zero⟩

/-- Settles O8: the outputs read the five items only, the symbol port by `State.symData_eq` and `State.symLast_iff`. -/
theorem outputPortValues : Obligations.OutputPortValues :=
  fun s _ => ⟨rfl, rfl, rfl, rfl, rfl, rfl, s.symData_eq, s.symLast_iff⟩

/-- Settles O9: the next state is `resetBlock`, whose items are those of the reset table. -/
theorem resetTableAndViews : Obligations.ResetTableAndViews := by
  refine ⟨fun s p hr => ?_, State.reset_outputs⟩
  exact ⟨_, (step_of_reset (inputs_scheduled_of_rst s hr) hr).1, rfl, rfl, rfl, rfl, rfl, rfl, rfl,
    resetBlock_frame_b4 _, resetBlock_status _, (resetBlock_outputs _).trans State.reset_outputs⟩

/-- Settles O10: the reset state is its own reset, and idle. -/
theorem resetStateSatisfiesInvariant : Obligations.ResetStateSatisfiesInvariant :=
  ⟨resetBlock_inv State.reset, rfl, rfl⟩

end Sys2Proof.Machine

/-! PROOFS. 30_encoding.md: the decoder against the encoder, the words that are frames, the rows of the opcode table, and
the statements O17 to O21. -/

namespace Sys2Proof.Machine

/-! ### The command of each mode -/

section
variable (ch : Nibble) (st : Nat)

@[simp] theorem decodeCommand_shock : decodeCommand ch 1 st = .shock ch st := rfl
@[simp] theorem decodeCommand_vibrate : decodeCommand ch 2 st = .vibrate ch st := rfl
@[simp] theorem decodeCommand_beep : decodeCommand ch 3 st = .beep ch st := rfl

/-- A reserved mode is the raw form (R52). -/
theorem decodeCommand_enc {md : Nibble} (h1 : md ≠ 1) (h2 : md ≠ 2) (h3 : md ≠ 3) :
    decodeCommand ch md st = .enc ch md st := by
  rw [decodeCommand, if_neg (show md ≠ modeShock from h1), if_neg (show md ≠ modeVibrate from h2),
    if_neg (show md ≠ modeBeep from h3)]

end

section
variable {ch md : Nibble} {st : Nat} {i : Instr}

/-- A decoded command has the channel it was decoded from. -/
theorem channel_of_decodeCommand (h : decodeCommand ch md st = i) : ch = i.channel := by
  obtain ⟨hch, -, -⟩ := decodeCommand_operands ch md st
  rw [← h, hch]

/-- A decoded command has the mode it was decoded from. -/
theorem mode_of_decodeCommand (h : decodeCommand ch md st = i) : md = i.mode := by
  obtain ⟨-, hmd, -⟩ := decodeCommand_operands ch md st
  rw [← h, hmd]

/-- Mode 1 alone decodes to SHOCK (R51). -/
theorem decodeCommand_is_shock_iff : (∃ c t, decodeCommand ch md st = .shock c t) ↔ md = 1 :=
  ⟨fun ⟨_, _, h⟩ => mode_of_decodeCommand h, fun h => ⟨ch, st, by rw [h, decodeCommand_shock]⟩⟩

/-- Mode 2 alone decodes to VIBRATE (R51). -/
theorem decodeCommand_is_vibrate_iff : (∃ c t, decodeCommand ch md st = .vibrate c t) ↔ md = 2 :=
  ⟨fun ⟨_, _, h⟩ => mode_of_decodeCommand h, fun h => ⟨ch, st, by rw [h, decodeCommand_vibrate]⟩⟩

/-- Mode 3 alone decodes to BEEP (R51). -/
theorem decodeCommand_is_beep_iff : (∃ c t, decodeCommand ch md st = .beep c t) ↔ md = 3 :=
  ⟨fun ⟨_, _, h⟩ => mode_of_decodeCommand h, fun h => ⟨ch, st, by rw [h, decodeCommand_beep]⟩⟩

/-- Mode 1 with channel CH01 alone decodes to a command of TRANSMIT (R63, log 8). -/
theorem decodeCommand_is_transmit_iff :
    (∃ t, decodeCommand ch md st = .shock ch01 t) ↔ md = 1 ∧ ch = ch01 :=
  ⟨fun ⟨_, h⟩ => ⟨mode_of_decodeCommand h, channel_of_decodeCommand h⟩,
    fun ⟨hmd, hch⟩ => ⟨st, by rw [hmd, hch, decodeCommand_shock]⟩⟩

end

/-! ### The decoder -/

/-- The frame of the fields of two bytes is the frame of the bytes (R12, R13). -/
theorem frame_of_fields (b2 b3 : Byte) : frame (channelField b2) (modeField b2) b3.toNat = frameOf b2 b3 := by
  rw [frame, packNibbles_fields, strengthByte_byte]

/-- What the decoder accepts, and the command it gives: the frames of this encoder, with the fields of bytes 2 and 3
(R51, R59). -/
theorem decode_eq_ok_iff {bytes : List Byte} {i : Instr} :
    decode bytes = .ok i ↔
      ∃ b2 b3 : Byte, bytes = (frameOf b2 b3).bytes ∧
        i = decodeCommand (channelField b2) (modeField b2) b3.toNat := by
  constructor
  · intro h
    unfold decode at h
    split at h
    · next b0 b1 b2 b3 b4 =>
      split at h
      · next hid =>
        split at h
        · next hsum =>
          cases h
          obtain ⟨rfl, rfl⟩ := hid
          exact ⟨b2, b3, by rw [hsum]; rfl, rfl⟩
        · cases h
      · cases h
    · cases h
  · rintro ⟨b2, b3, rfl, rfl⟩
    simp [decode, Frame.bytes, frameOf]

/-- Decoding an encoding gives the canonical name of the command (R59, log 8). -/
theorem decode_encode (i : Instr) : decode (encode i) = .ok i.canonical := by
  refine decode_eq_ok_iff.2 ⟨packNibbles i.channel i.mode, strengthByte i.strength, rfl, ?_⟩
  rw [channelField_packNibbles, modeField_packNibbles, strengthByte_toNat, Instr.canonical]

/-- A strength that fits the byte is kept by the canonical name (R54). -/
theorem Instr.canonical_of_strength_lt {i : Instr} (h : i.strength < 256) :
    i.canonical = decodeCommand i.channel i.mode i.strength := by
  rw [Instr.canonical, Nat.mod_eq_of_lt h]

/-- With a strength that fits the byte, an encoding decodes to the command of its operands. -/
theorem decode_encode_of_strength_lt {i : Instr} (h : i.strength < 256) :
    decode (encode i) = .ok (decodeCommand i.channel i.mode i.strength) := by
  rw [decode_encode, Instr.canonical_of_strength_lt h]

/-- Encoding a decoded command gives back the bytes, and its strength is a byte (R59). -/
theorem encode_of_decode {bytes : List Byte} {i : Instr} (h : decode bytes = .ok i) :
    encode i = bytes ∧ i.strength < 256 := by
  obtain ⟨b2, b3, rfl, rfl⟩ := decode_eq_ok_iff.1 h
  obtain ⟨hch, hmd, hst⟩ := decodeCommand_operands (channelField b2) (modeField b2) b3.toNat
  rw [encode, hch, hmd, hst, frame_of_fields]
  exact ⟨rfl, b3.isLt⟩

/-- The decoder on five bytes: the identifier is looked at first, then the checksum (R59). -/
theorem decode_five (b0 b1 b2 b3 b4 : Byte) :
    decode [b0, b1, b2, b3, b4] =
      if b0 = 0xDD ∧ b1 = 0xC8 then
        if b4 = csum b0 b1 b2 b3 then .ok (decodeCommand (channelField b2) (modeField b2) b3.toNat)
        else .error .wrongChecksum
      else .error .wrongIdentifier := rfl

/-- The length is all that `wrongLength` speaks of (R61). -/
theorem decode_eq_wrongLength_iff (bytes : List Byte) :
    decode bytes = .error .wrongLength ↔ bytes.length ≠ 5 := by
  match bytes with
  | [b0, b1, b2, b3, b4] =>
    rw [decode_five]
    split
    · split <;> simp
    · simp
  | [] | [_] | [_, _] | [_, _, _] | [_, _, _, _] | _ :: _ :: _ :: _ :: _ :: _ :: _ => simp [decode]

/-- A checksum byte as a number (R90). -/
theorem eq_csum_iff (b0 b1 b2 b3 b4 : Byte) :
    b4 = csum b0 b1 b2 b3 ↔ b4.toNat = (b0.toNat + b1.toNat + b2.toNat + b3.toNat) % 256 := by
  rw [← BitVec.toNat_inj, csum_toNat]

/-! ### Bytes side by side -/

/-- Two bytes side by side are read back. -/
theorem append_byte_inj {a b c d : Byte} : a ++ b = c ++ d ↔ a = c ∧ b = d := by
  refine ⟨fun h => ?_, fun ⟨hac, hbd⟩ => by rw [hac, hbd]⟩
  have hnat := congrArg BitVec.toNat h
  rw [BitVec.toNat_append, BitVec.toNat_append, shift_or_byte, shift_or_byte] at hnat
  have := b.isLt; have := d.isLt
  exact ⟨BitVec.eq_of_toNat_eq (by omega), BitVec.eq_of_toNat_eq (by omega)⟩

/-- Two frames with one word are one frame (R15). -/
theorem Frame.word40_inj {f g : Frame} : f.word40 = g.word40 ↔ f = g :=
  ⟨fun h => by rw [← f.ofWord_word40, h, g.ofWord_word40], fun h => by rw [h]⟩

/-- Two frames with the same list of bytes are one frame (R31). -/
theorem Frame.bytes_inj {f g : Frame} : f.bytes = g.bytes ↔ f = g := by
  cases f; cases g; simp [Frame.bytes]

/-- The command word as a number (R45). -/
theorem cmd16_toNat (ch md : Nibble) (st : Nat) :
    (cmd16 ch md st).toNat = (ch.toNat * 16 + md.toNat) * 256 + st % 256 := by
  rw [cmd16, BitVec.toNat_append, shift_or_byte, packNibbles_toNat, strengthByte_toNat]

/-- The command word of its own fields (R45). -/
theorem cmd16_of_fields (c : BitVec 16) :
    cmd16 (c.extractLsb' 12 4) (c.extractLsb' 8 4) (c.extractLsb' 0 8).toNat = c := by
  apply BitVec.eq_of_toNat_eq
  have := c.isLt
  simp only [cmd16_toNat, BitVec.extractLsb'_toNat, Nat.shiftRight_eq_div_pow]
  omega

/-! ### Which words are frames, and how many -/

/-- The command word stands in the frame word (R45, R46). -/
theorem frame_word40_cmd16 (ch md : Nibble) (st : Nat) :
    (frame ch md st).word40.extractLsb' 8 16 = cmd16 ch md st := by
  rw [Frame.word40_middle, frame_b2, frame_b3, cmd16]

/-- A word is a frame exactly when its identifier and its checksum are right (R59). -/
theorem frame_word40_surj_iff (w : BitVec 40) :
    (∃ ch md st, (frame ch md st).word40 = w) ↔
      w.extractLsb' 24 16 = 0xDDC8 ∧
      (w.extractLsb' 0 8).toNat =
        (0xDD + 0xC8 + (w.extractLsb' 16 8).toNat + (w.extractLsb' 8 8).toNat) % 256 := by
  constructor
  · rintro ⟨ch, md, st, rfl⟩
    rw [Frame.word40_upper, Frame.word40_b4, Frame.word40_b3, Frame.word40_b2]
    exact ⟨by rw [frame_b0, frame_b1]; rfl, csum_toNat idHi idLo (packNibbles ch md) (strengthByte st)⟩
  · rintro ⟨hid, hsum⟩
    obtain ⟨f, rfl⟩ : ∃ f : Frame, f.word40 = w := ⟨Frame.ofWord w, Frame.word40_ofWord w⟩
    rw [Frame.word40_b4, Frame.word40_b3, Frame.word40_b2] at hsum
    rw [Frame.word40_upper] at hid
    obtain ⟨h0, h1⟩ := append_byte_inj.1 (hid.trans (show (0xDDC8 : BitVec 16) = 0xDD#8 ++ 0xC8#8 from rfl))
    refine ⟨channelField f.b2, modeField f.b2, f.b3.toNat, ?_⟩
    have h4 : f.b4 = csum idHi idLo f.b2 f.b3 := (eq_csum_iff _ _ _ _ _).2 hsum
    rw [frame_of_fields, Frame.word40_inj, frameOf, ← h4]
    cases f; cases h0; cases h1; rfl

/-- The operands of a frame are fields of its word (R12, R13, R59). -/
theorem operands_of_frame_word40 (ch md : Nibble) (st : Nat) :
    (frame ch md st).word40.extractLsb' 20 4 = ch ∧ (frame ch md st).word40.extractLsb' 16 4 = md ∧
    ((frame ch md st).word40.extractLsb' 8 8).toNat = st % 256 := by
  refine ⟨?_, ?_, ?_⟩
  · rw [Frame.word40_channel, frame_b2, channelField_packNibbles]
  · rw [Frame.word40_mode, frame_b2, modeField_packNibbles]
  · rw [Frame.word40_b3, frame_b3_toNat]

/-- A command word as a frame word (R45, R59). -/
def frameWordOfCmd16 (c : BitVec 16) : BitVec 40 :=
  (frame (c.extractLsb' 12 4) (c.extractLsb' 8 4) (c.extractLsb' 0 8).toNat).word40

/-- Different command words have different frames: the command word is read back (R59). -/
theorem frameWordOfCmd16_injective : Function.Injective frameWordOfCmd16 :=
  Function.LeftInverse.injective (g := fun w => w.extractLsb' 8 16) fun c =>
    (frame_word40_cmd16 _ _ _).trans (cmd16_of_fields c)

/-- There are 65536 command words (R45). -/
theorem natCard_cmd16 : Nat.card (BitVec 16) = 65536 :=
  Nat.card_eq_of_equiv_fin (FinEnum.equiv (α := BitVec 16))

/-- The operands that the source calls defined or meaningful (R47, R48, R54). -/
def meaningfulOperands : Finset (Nibble × Nibble × Nat) :=
  {ch01, ch02, ch03} ×ˢ {modeShock, modeVibrate, modeBeep} ×ˢ Finset.range 100

/-- A command is meaningful exactly when its operands are. -/
theorem meaningful_iff (i : Instr) :
    i.meaningful = true ↔ (i.channel, i.mode, i.strength) ∈ meaningfulOperands := by
  simp [Instr.meaningful, channelDefined, modeDefined, meaningfulOperands, Nat.lt_succ_iff, and_assoc, or_assoc]

/-- Meaningful strengths end at 99 (R54). -/
theorem strength_lt_of_mem {c : Nibble × Nibble × Nat} (h : c ∈ meaningfulOperands) : c.2.2 < 100 := by
  obtain ⟨-, hrest⟩ := Finset.mem_product.1 h
  exact Finset.mem_range.1 (Finset.mem_product.1 hrest).2

/-- The frame word of three operands. -/
def frameWordOf (c : Nibble × Nibble × Nat) : BitVec 40 := (frame c.1 c.2.1 c.2.2).word40

/-- On meaningful operands the frame word tells the command: their strengths are below 256 (R59). -/
theorem frameWordOf_injOn : Set.InjOn frameWordOf meaningfulOperands := by
  rintro ⟨ch, md, st⟩ hc ⟨ch', md', st'⟩ hd h
  obtain ⟨h1, h2, h3⟩ := operands_of_frame_word40 ch md st
  obtain ⟨h1', h2', h3'⟩ := operands_of_frame_word40 ch' md' st'
  have hw : (frame ch md st).word40 = (frame ch' md' st').word40 := h
  have hst : st < 100 := strength_lt_of_mem hc
  have hst' : st' < 100 := strength_lt_of_mem hd
  rw [hw, h1'] at h1; rw [hw, h2'] at h2; rw [hw, h3'] at h3
  rw [h1, h2, show st = st' by omega]

/-- The words of the meaningful commands are the frame words of the meaningful operands. -/
theorem words_of_meaningful :
    {w : BitVec 40 | ∃ i : Instr, i.meaningful = true ∧ encodeWord i = w} = frameWordOf '' meaningfulOperands := by
  ext w
  constructor
  · rintro ⟨i, hi, rfl⟩
    exact ⟨_, (meaningful_iff i).1 hi, rfl⟩
  · rintro ⟨⟨ch, md, st⟩, hc, rfl⟩
    exact ⟨.enc ch md st, (meaningful_iff _).2 hc, rfl⟩

/-! ### The rows of the opcode table -/

/-- A word that decodes is the frame word of the operands it decodes to (R51, R59). -/
theorem frame_of_decode {w : BitVec 40} {i : Instr} (h : decode (Frame.ofWord w).bytes = .ok i) :
    ∃ ch md st, (frame ch md st).word40 = w ∧ decodeCommand ch md st = i := by
  obtain ⟨b2, b3, hbytes, rfl⟩ := decode_eq_ok_iff.1 h
  refine ⟨channelField b2, modeField b2, b3.toNat, ?_, rfl⟩
  rw [frame_of_fields, ← Frame.word40_ofWord w, Frame.word40_inj, ← Frame.bytes_inj, hbytes]

/-- A command word is that of the operands it decodes to (R45, R51). -/
theorem cmd16_of_decodeCmd16 (w : BitVec 16) :
    ∃ ch md st, cmd16 ch md st = w ∧ decodeCmd16 w = decodeCommand ch md st :=
  ⟨_, _, _, cmd16_of_fields w, rfl⟩

section
variable (ch md : Nibble) (st : Nat)

/-- The frame word of the identifier with this byte 2 and nothing below it: the pattern of a row (R51). -/
def rowPattern (b2 : Byte) : BitVec 40 := (Frame.mk 0xDD 0xC8 b2 0#8 0#8).word40

/-- Two row patterns are equal exactly when their bytes 2 are. -/
theorem rowPattern_inj {b c : Byte} : rowPattern b = rowPattern c ↔ b = c := by
  simp [rowPattern, Frame.word40_inj]

/-- Under the mask of TRANSMIT's row a frame word keeps the whole of byte 2 (R51, R63). -/
theorem frame_word40_and_transmitMask :
    (frame ch md st).word40 &&& 0xFFFFFF0000 = rowPattern (packNibbles ch md) := by
  have hmask : (0xFFFFFF0000 : BitVec 40) =
      (Frame.mk (BitVec.allOnes 8) (BitVec.allOnes 8) (BitVec.allOnes 8) 0#8 0#8).word40 := by decide
  rw [hmask, Frame.word40_and]
  simp only [frame_b0, frame_b1, frame_b2, BitVec.and_allOnes, BitVec.and_zero, rowPattern]

/-- Under the mask of ENC's row a frame word keeps the identifier alone (R51). -/
theorem frame_word40_and_encMask : (frame ch md st).word40 &&& 0xFFFF000000 = rowPattern 0#8 := by
  have hmask : (0xFFFF000000 : BitVec 40) =
      (Frame.mk (BitVec.allOnes 8) (BitVec.allOnes 8) 0#8 0#8 0#8).word40 := by decide
  rw [hmask, Frame.word40_and]
  simp only [frame_b0, frame_b1, BitVec.and_allOnes, BitVec.and_zero, rowPattern]

/-- Two nibble pairs as an equivalence (R83). -/
theorem packNibbles_eq_iff {ch md ch' md' : Nibble} :
    packNibbles ch md = packNibbles ch' md' ↔ ch = ch' ∧ md = md' :=
  ⟨packNibbles_inj, fun ⟨hch, hmd⟩ => by rw [hch, hmd]⟩

/-- A row with the mask of the three commands hits a frame word exactly when the mode is the row's (R51). -/
theorem modeRow_hits_frame (m : Nibble) (cmdMask cmdPattern : BitVec 16) :
    (OpRow.mk 0xFFFF0F0000 (rowPattern (packNibbles 0 m)) cmdMask cmdPattern).hits (frame ch md st).word40 = true ↔
      md = m := by
  rw [OpRow.hits, beq_iff_eq, frame_word40_and_modeRowMask]
  exact rowPattern_inj.trans (packNibbles_eq_iff.trans (and_iff_right rfl))

/-- TRANSMIT's row hits a frame word exactly when the channel is CH01 and the mode 1 (R51, R63). -/
theorem rowTransmit_hits_frame :
    rowTransmit.hits (frame ch md st).word40 = true ↔ md = 1 ∧ ch = ch01 := by
  rw [OpRow.hits, beq_iff_eq, rowTransmit, frame_word40_and_transmitMask]
  exact rowPattern_inj.trans ((packNibbles_eq_iff (ch' := 0) (md' := 1)).trans and_comm)

/-- ENC's row hits every frame word (R51). -/
theorem rowEnc_hits_frame : rowEnc.hits (frame ch md st).word40 = true := by
  rw [OpRow.hits, beq_iff_eq, rowEnc, frame_word40_and_encMask]; rfl

/-- Under the mask of the rows SHOCK, VIBRATE and BEEP a command word keeps the mode alone (R51). -/
theorem cmd16_and_modeRowMask : cmd16 ch md st &&& 0x0F00 = packNibbles 0 md ++ 0#8 := by
  have hmask : (0x0F00 : BitVec 16) = (0x0F : Byte) ++ 0#8 := rfl
  rw [hmask, cmd16, BitVec.and_append, packNibbles_and_lower, BitVec.and_zero]

/-- Under the mask of TRANSMIT's row a command word keeps channel and mode (R51, R63). -/
theorem cmd16_and_transmitMask : cmd16 ch md st &&& 0xFF00 = packNibbles ch md ++ 0#8 := by
  have hmask : (0xFF00 : BitVec 16) = BitVec.allOnes 8 ++ 0#8 := rfl
  rw [hmask, cmd16, BitVec.and_append, BitVec.and_allOnes, BitVec.and_zero]

/-- Command words with nothing in the strength byte are compared by channel and mode. -/
theorem packNibbles_append_zero_inj {ch md ch' md' : Nibble} :
    packNibbles ch md ++ 0#8 = packNibbles ch' md' ++ 0#8 ↔ ch = ch' ∧ md = md' :=
  append_byte_inj.trans ((and_iff_left rfl).trans packNibbles_eq_iff)

/-- A row with the mask of the three commands hits a command word exactly when the mode is the row's (R51). -/
theorem modeRow_hitsCmd_cmd16 (m : Nibble) (mask pattern : BitVec 40) :
    (OpRow.mk mask pattern 0x0F00 (packNibbles 0 m ++ 0#8)).hitsCmd (cmd16 ch md st) = true ↔ md = m := by
  rw [OpRow.hitsCmd, beq_iff_eq, cmd16_and_modeRowMask]
  exact packNibbles_append_zero_inj.trans (and_iff_right rfl)

/-- TRANSMIT's row hits a command word exactly when the channel is CH01 and the mode 1 (R51, R63). -/
theorem rowTransmit_hitsCmd_cmd16 : rowTransmit.hitsCmd (cmd16 ch md st) = true ↔ md = 1 ∧ ch = ch01 := by
  rw [OpRow.hitsCmd, beq_iff_eq, rowTransmit, cmd16_and_transmitMask]
  exact (packNibbles_append_zero_inj (ch' := 0) (md' := 1)).trans and_comm

end

/-! ### The statements -/

/-- Settles O19: an encoding decodes to its canonical name (`decode_encode`), which the mode decides. -/
theorem decodeOfEncode : Obligations.DecodeOfEncode := by
  refine ⟨fun ch st h => ?_, fun ch st h => ?_, fun ch st h => ?_, fun ch md st h h1 h2 h3 => ?_, fun ch st h => ?_,
    fun ch st h => ?_, fun ch st h => ?_, fun st h => ?_, decode_encode⟩
  · exact decode_encode_of_strength_lt (i := .shock ch st) h
  · exact decode_encode_of_strength_lt (i := .vibrate ch st) h
  · exact decode_encode_of_strength_lt (i := .beep ch st) h
  · rw [decode_encode_of_strength_lt (i := .enc ch md st) h]
    exact congrArg Except.ok (decodeCommand_enc ch st h1 h2 h3)
  · exact decode_encode_of_strength_lt (i := .enc ch 1 st) h
  · exact decode_encode_of_strength_lt (i := .enc ch 2 st) h
  · exact decode_encode_of_strength_lt (i := .enc ch 3 st) h
  · exact decode_encode_of_strength_lt (i := .transmit st) h

/-- Settles O20: the decoder accepts the frames only (`decode_eq_ok_iff`), and its two checks on five bytes are read off
`decode_five`. -/
theorem encodeOfDecode : Obligations.EncodeOfDecode := by
  refine ⟨fun bytes i h => encode_of_decode h, decode_eq_wrongLength_iff, fun b0 b1 b2 b3 b4 => ?_⟩
  rw [decode_five, ne_eq, ← eq_csum_iff, ← and_assoc]
  by_cases hid : b0 = 0xDD ∧ b1 = 0xC8
  · rw [if_pos hid]
    by_cases hsum : b4 = csum b0 b1 b2 b3
    · rw [if_pos hsum]
      exact ⟨iff_of_false (by simp) (not_not.2 hid), iff_of_false (by simp) (fun h => h.2 hsum)⟩
    · rw [if_neg hsum]
      exact ⟨iff_of_false (by simp) (not_not.2 hid), iff_of_true rfl ⟨hid, hsum⟩⟩
  · rw [if_neg hid]
    exact ⟨iff_of_true rfl hid, iff_of_false (by simp) (fun h => hid h.1)⟩

/-- Settles O17: identifier and checksum make a frame (`frame_word40_surj_iff`), the command word is read back from it,
and the meaningful words are counted by their operands, 3 * 3 * 100. -/
theorem frameRecognition : Obligations.FrameRecognition := by
  refine ⟨frame_word40_surj_iff, ?_, ?_, ?_⟩
  · rintro w ch md st rfl
    obtain ⟨hch, hmd, hst⟩ := operands_of_frame_word40 ch md st
    exact ⟨hch.symm, hmd.symm, hst.symm⟩
  · have hrange := Set.ncard_image_of_injective Set.univ frameWordOfCmd16_injective
    rw [Set.image_univ, Set.ncard_univ, natCard_cmd16] at hrange
    exact hrange
  · rw [words_of_meaningful, frameWordOf_injOn.ncard_image, Set.ncard_coe_finset, meaningfulOperands,
      Finset.card_product, Finset.card_product, Finset.card_range]
    rfl

/-- Settles O18: a word that decodes is a frame word, on which each row looks at the mode, or at channel and mode, as the
decoder does; a command word is made of its own fields. -/
theorem opcodeMapSelectsTheCommand : Obligations.OpcodeMapSelectsTheCommand := by
  constructor
  · intro w i h
    obtain ⟨ch, md, st, rfl, rfl⟩ := frame_of_decode h
    rw [decodeCommand_is_shock_iff, decodeCommand_is_vibrate_iff, decodeCommand_is_beep_iff,
      decodeCommand_is_transmit_iff]
    exact ⟨modeRow_hits_frame ch md st 1 _ _, modeRow_hits_frame ch md st 2 _ _, modeRow_hits_frame ch md st 3 _ _,
      rowTransmit_hits_frame ch md st, rowEnc_hits_frame ch md st⟩
  · intro w
    obtain ⟨ch, md, st, rfl, hdecode⟩ := cmd16_of_decodeCmd16 w
    rw [hdecode, decodeCommand_is_shock_iff, decodeCommand_is_vibrate_iff, decodeCommand_is_beep_iff,
      decodeCommand_is_transmit_iff]
    exact ⟨modeRow_hitsCmd_cmd16 ch md st 1 _ _, modeRow_hitsCmd_cmd16 ch md st 2 _ _,
      modeRow_hitsCmd_cmd16 ch md st 3 _ _, rowTransmit_hitsCmd_cmd16 ch md st⟩

/-- Settles O21: five evaluations of the decoder. -/
theorem wordsWrittenOutDecode : Obligations.WordsWrittenOutDecode :=
  ⟨rfl, rfl, rfl, rfl, rfl⟩

end Sys2Proof.Machine

/-! PROOFS. 30_encoding.md section 7: a printed numeral read back, a printed line cut into its words, and the statement
O22. -/

namespace Sys2Proof.Machine

/-! ### Decimal numerals -/

/-- The value of a decimal digit is its distance from '0' (R62). -/
theorem digitValue_of_isDigit {c : Char} (h : c.isDigit = true) : digitValue 10 c = some (c.toNat - 48) := by
  have hrange : 48 ≤ c.toNat ∧ c.toNat ≤ 57 := by
    simp only [Char.isDigit, Bool.and_eq_true, decide_eq_true_iff] at h
    exact h
  have hlt : c.toNat - 48 < 10 := by omega
  simp only [digitValue, if_pos hrange, if_pos hlt]

/-- Digits are read as the library reads them. -/
theorem digitsValue_of_isDigit {cs : Text} (h : ∀ c ∈ cs, c.isDigit = true) (acc : Nat) :
    digitsValue 10 acc cs = some (Nat.ofDigitChars 10 cs acc) := by
  induction cs generalizing acc with
  | nil => rfl
  | cons c cs ih =>
    have hvalue := digitValue_of_isDigit (h c List.mem_cons_self)
    rw [digitsValue, hvalue, Nat.ofDigitChars_cons, Nat.mul_comm 10 acc]
    exact ih (fun d hd => h d (List.mem_cons_of_mem c hd)) _

/-- A word of digits is a decimal numeral, since 'x' is no digit (R62). -/
theorem numeral_of_isDigit {cs : Text} (hne : cs ≠ []) (h : ∀ c ∈ cs, c.isDigit = true) :
    numeral cs = some (Nat.ofDigitChars 10 cs 0) := by
  unfold numeral
  split
  · exact absurd rfl hne
  · next c rest =>
    have hx : 'x'.isDigit = true := h 'x' (by simp)
    exact absurd hx (by decide)
  · exact digitsValue_of_isDigit h 0

/-- The characters of a printed numeral are digits. -/
theorem isDigit_of_mem_decimal {n : Nat} {c : Char} (h : c ∈ decimal n) : c.isDigit = true :=
  Nat.isDigit_of_mem_toDigits (by decide) (by decide) h

/-- A printed numeral has a digit. -/
theorem decimal_ne_nil (n : Nat) : decimal n ≠ [] := Nat.toDigits_ne_nil

/-- A printed numeral is read back (R62, log 13). -/
theorem numeral_decimal (n : Nat) : numeral (decimal n) = some n := by
  rw [numeral_of_isDigit (decimal_ne_nil n) fun _ => isDigit_of_mem_decimal]
  exact congrArg some Nat.ofDigitChars_ten_toDigits

/-- A printed nibble is read back (R62). -/
theorem nibbleNumeral_decimal (n : Nibble) : nibbleNumeral (decimal n.toNat) = some n := by
  rw [nibbleNumeral, numeral_decimal]
  simp [n.isLt]

/-- A printed numeral is no channel name: it has no 'C' (R47). -/
theorem decimal_ne_channelName (n : Nat) (cs : Text) : decimal n ≠ 'C' :: cs := by
  intro h
  have hC : 'C'.isDigit = true := isDigit_of_mem_decimal (n := n) (by rw [h]; exact List.mem_cons_self)
  exact absurd hC (by decide)

/-- A printed channel is read back (R62). -/
theorem channelOperand_decimal (ch : Nibble) : channelOperand (decimal ch.toNat) = some ch := by
  rw [channelOperand, if_neg (decimal_ne_channelName _ _), if_neg (decimal_ne_channelName _ _),
    if_neg (decimal_ne_channelName _ _), nibbleNumeral_decimal]

/-! ### Words of a line -/

/-- A word of a line: some characters, none of them a space or a comma (log 13). -/
def IsWord (w : Text) : Prop := w ≠ [] ∧ ' ' ∉ w ∧ ',' ∉ w

/-- A printed numeral is a word. -/
theorem isWord_decimal (n : Nat) : IsWord (decimal n) := by
  refine ⟨decimal_ne_nil n, fun h => ?_, fun h => ?_⟩
  · exact absurd (isDigit_of_mem_decimal h) (by decide)
  · exact absurd (isDigit_of_mem_decimal h) (by decide)

theorem isWord_nameShock : IsWord nameShock := ⟨by decide, by decide, by decide⟩
theorem isWord_nameVibrate : IsWord nameVibrate := ⟨by decide, by decide, by decide⟩
theorem isWord_nameBeep : IsWord nameBeep := ⟨by decide, by decide, by decide⟩
theorem isWord_nameEnc : IsWord nameEnc := ⟨by decide, by decide, by decide⟩
theorem isWord_nameTransmit : IsWord nameTransmit := ⟨by decide, by decide, by decide⟩

/-- Characters that do not separate are collected in reverse. -/
theorem tokenize_append (w acc rest : Text) (hs : ' ' ∉ w) (hc : ',' ∉ w) :
    tokenize acc (w ++ rest) = tokenize (w.reverse ++ acc) rest := by
  induction w generalizing acc with
  | nil => rfl
  | cons c w ih =>
    rw [List.mem_cons, not_or] at hs hc
    obtain ⟨hcs, hws⟩ := hs
    obtain ⟨hcc, hwc⟩ := hc
    rw [List.cons_append, tokenize, if_neg (Ne.symm hcs), if_neg (Ne.symm hcc), ih _ hws hwc]
    simp

section
variable {w : Text} (h : IsWord w)
include h

/-- A collected word is put before the tokens that follow. -/
theorem flushWord_reverse (ts : List Token) : flushWord (w.reverse ++ []) ts = .word w :: ts := by
  obtain ⟨hne, -⟩ := h
  rw [List.append_nil]
  cases hw : w.reverse with
  | nil => exact absurd (List.reverse_eq_nil_iff.1 hw) hne
  | cons c cs => rw [flushWord, ← hw, List.reverse_reverse]

/-- A word is collected as a whole. -/
theorem tokenize_word (rest : Text) : tokenize [] (w ++ rest) = tokenize (w.reverse ++ []) rest := by
  obtain ⟨-, hs, hc⟩ := h
  exact tokenize_append w [] rest hs hc

/-- A word at the end of a line. -/
theorem tokenize_word_end : tokenize [] w = [.word w] := by
  have happend := tokenize_word h []
  rw [List.append_nil] at happend
  rw [happend, tokenize, flushWord_reverse h]

/-- A word before a space. -/
theorem tokenize_word_space (rest : Text) : tokenize [] (w ++ ' ' :: rest) = .word w :: tokenize [] rest := by
  rw [tokenize_word h, tokenize, if_pos rfl, flushWord_reverse h]

/-- A word before a comma and a space. -/
theorem tokenize_word_comma (rest : Text) :
    tokenize [] (w ++ ',' :: ' ' :: rest) = .word w :: .comma :: tokenize [] rest := by
  rw [tokenize_word h, tokenize, if_neg (by decide), if_pos rfl, flushWord_reverse h, tokenize,
    if_pos rfl]
  rfl

end

/-! ### Printed lines -/

section
variable {name : Text} (hname : IsWord name) (a b st : Nat)
include hname

/-- The tokens of a printed line with one operand (R63). -/
theorem tokenize_oneOperand :
    tokenize [] (name ++ [' '] ++ decimal st) = [.word name, .word (decimal st)] := by
  rw [List.append_assoc, List.singleton_append, tokenize_word_space hname, tokenize_word_end (isWord_decimal st)]

/-- The tokens of a printed line with two operands (R62). -/
theorem tokenize_twoOperands :
    tokenize [] (name ++ [' '] ++ decimal a ++ [',', ' '] ++ decimal st) =
      [.word name, .word (decimal a), .comma, .word (decimal st)] := by
  simp only [List.append_assoc, List.cons_append, List.nil_append]
  rw [tokenize_word_space hname, tokenize_word_comma (isWord_decimal a), tokenize_word_end (isWord_decimal st)]

/-- The tokens of a printed line with three operands (R62). -/
theorem tokenize_threeOperands :
    tokenize [] (name ++ [' '] ++ decimal a ++ [',', ' '] ++ decimal b ++ [',', ' '] ++ decimal st) =
      [.word name, .word (decimal a), .comma, .word (decimal b), .comma, .word (decimal st)] := by
  simp only [List.append_assoc, List.cons_append, List.nil_append]
  rw [tokenize_word_space hname, tokenize_word_comma (isWord_decimal a), tokenize_word_comma (isWord_decimal b),
    tokenize_word_end (isWord_decimal st)]

/-- A printed line with a channel and a strength is the named command of them (R62). -/
theorem parseTokens_twoOperands (ch : Nibble) :
    parseTokens (tokenize [] (name ++ [' '] ++ decimal ch.toNat ++ [',', ' '] ++ decimal st)) =
      namedCommand name ch st := by
  rw [tokenize_twoOperands hname]
  simp [parseTokens, channelOperand_decimal, numeral_decimal]

end

/-- The tokens of a printed command are those of the command (R62, R63). -/
theorem parseTokens_renderLine (i : Instr) : parseTokens (tokenize [] (renderLine i)) = some i := by
  cases i with
  | shock ch st => exact parseTokens_twoOperands isWord_nameShock st ch
  | vibrate ch st => exact parseTokens_twoOperands isWord_nameVibrate st ch
  | beep ch st => exact parseTokens_twoOperands isWord_nameBeep st ch
  | enc ch md st =>
    rw [renderLine, tokenize_threeOperands isWord_nameEnc]
    simp [parseTokens, channelOperand_decimal, nibbleNumeral_decimal, numeral_decimal]
  | transmit st =>
    rw [renderLine, tokenize_oneOperand isWord_nameTransmit]
    simp [parseTokens, numeral_decimal]

/-! ### The statement -/

/-- Settles O22: a printed line is cut into the words it was made of, its numerals are read back (`numeral_decimal`), and
the strength fits by hypothesis. -/
theorem parseOfRenderedLine : Obligations.ParseOfRenderedLine := by
  intro c i hfits
  rw [parseLine, parseTokens_renderLine]
  exact if_pos hfits

end Sys2Proof.Machine

/-! PROOFS. 40_commands.md and 42_checksum.md: what a command leaves unchanged, the checksum computed in other ways, and
the statements O26, O28, O29, O32 to O34. -/

namespace Sys2Proof.Machine

/-! ### The frame of a command -/

/-- All a command can do: it is refused before the first RESET, waits while the block is busy, or is accepted. -/
theorem exec_cases (i : Instr) (s : State) :
    (s.resetSeen = false ∧ exec i s = .refused .beforeFirstReset) ∨
    (s.resetSeen = true ∧ s.busy = true ∧ exec i s = .next s) ∨
    (s.resetSeen = true ∧ s.busy = false ∧
      exec i s = .next (acceptCommand i.channel i.mode i.strength s)) := by
  rw [exec_eq_presentCommand]
  exact presentCommand_cases i.channel i.mode i.strength s

/-- The five bytes of a command as the spec computes them (R70). -/
theorem frame_bytes (ch md : Nibble) (st : Nat) :
    (frame ch md st).bytes =
      [0xDD, 0xC8, BitVec.ofNat 8 (ch.toNat * 16 + md.toNat), BitVec.ofNat 8 (st % 256),
        BitVec.ofNat 8 ((0xDD + 0xC8 + (ch.toNat * 16 + md.toNat) + st % 256) % 256)] := by
  have h4 : (frame ch md st).b4 =
      BitVec.ofNat 8 ((0xDD + 0xC8 + (ch.toNat * 16 + md.toNat) + st % 256) % 256) := by
    rw [← frame_b4_toNat, BitVec.ofNat_toNat, BitVec.setWidth_eq]
  rw [Frame.bytes, h4, ofNat_packNibbles, strengthByte_mod st, frame_b0, frame_b1, frame_b2, frame_b3]

/-! ### The checksum computed in other ways -/

/-- The checksum is the 8-bit wrapping sum (R91). -/
theorem csum_eq_add (b0 b1 b2 b3 : Byte) : csum b0 b1 b2 b3 = b0 + b1 + b2 + b3 := by
  apply BitVec.eq_of_toNat_eq
  simp

/-- The checksum is the low byte of the 10-bit sum, which holds four bytes (R91). -/
theorem csum_eq_setWidth (b0 b1 b2 b3 : Byte) :
    csum b0 b1 b2 b3 = (b0.setWidth 10 + b1.setWidth 10 + b2.setWidth 10 + b3.setWidth 10).setWidth 8 := by
  apply BitVec.eq_of_toNat_eq
  simp only [csum_toNat, BitVec.toNat_setWidth, BitVec.toNat_add]
  omega

/-- Wrapping addition in any order gives the checksum (R91). -/
theorem foldl_add_of_perm {l : List Byte} {b0 b1 b2 b3 : Byte} (h : l.Perm [b0, b1, b2, b3]) :
    l.foldl (· + ·) 0 = csum b0 b1 b2 b3 := by
  rw [h.foldl_op_eq, csum_eq_add]
  simp

/-- Byte 4 with the identifier reduced to its constant (R92). -/
theorem frameOf_b4_toNat_of_constant (b2 b3 : Byte) :
    (frameOf b2 b3).b4.toNat = (0xA5 + b2.toNat + b3.toNat) % 256 := by
  rw [frameOf_b4_toNat]; omega

/-- The checksum is a given byte exactly when bytes 2 and 3 add up to its distance from the constant (R93). -/
theorem frameOf_b4_eq_iff_sum (b2 b3 v : Byte) :
    (frameOf b2 b3).b4 = v ↔ (0xA5 + (b2.toNat + b3.toNat)) % 256 = v.toNat := by
  rw [← BitVec.toNat_inj, frameOf_b4_toNat_of_constant, Nat.add_assoc]

/-! ### The statements -/

/-- Settles O26: a ready block takes ENC with any operands, and its bytes are steps 1 to 4 in the spec's arithmetic. -/
theorem encCompletes : Obligations.EncCompletes := by
  refine ⟨fun ch md st s hready => hready.exec_next (.enc ch md st), fun ch md st => ⟨frame_bytes ch md st, rfl⟩,
    rfl, rfl, rfl, ?_⟩
  decide

/-- Settles O28: of the cases of `exec_cases`, waiting leaves the whole state and ACCEPT all but the five items. -/
theorem commandFrame : Obligations.CommandFrame := by
  intro i s t h
  obtain ⟨-, he⟩ | ⟨-, -, he⟩ | ⟨-, hb, he⟩ := exec_cases i s
  · rw [he] at h; cases h
  · rw [he] at h; cases h
    exact ⟨rfl, rfl, rfl, rfl, rfl, fun _ => rfl⟩
  · rw [he] at h; cases h
    exact ⟨rfl, rfl, rfl, rfl, rfl, fun hbusy => absurd (hb.symm.trans hbusy) (by decide)⟩

/-- Settles O29: the two cases of `exec_cases` in which a command does not complete. -/
theorem commandWaitsOrIsRefused : Obligations.CommandWaitsOrIsRefused := by
  intro i s
  obtain ⟨hs, he⟩ | ⟨hs, hb, he⟩ | ⟨hs, hb, he⟩ := exec_cases i s
  · simp [hs, he]
  · simp [hs, hb, he]
  · simp [hs, hb]

/-- Settles O32: the exact sum by definition, the other computations by `csum_eq_setWidth` and `foldl_add_of_perm`, and
the range from the constant 421 of the identifier and two bytes. -/
theorem checksumArithmetic : Obligations.ChecksumArithmetic := by
  refine ⟨fun b0 b1 b2 b3 => ⟨csum_toNat b0 b1 b2 b3, csum_eq_setWidth b0 b1 b2 b3, fun l h => foldl_add_of_perm h⟩,
    fun ch md st => ?_⟩
  have hid : (frame ch md st).b0.toNat + (frame ch md st).b1.toNat = 421 := by rw [frame_b0, frame_b1]; rfl
  have := (frame ch md st).b2.isLt
  have := (frame ch md st).b3.isLt
  exact ⟨by omega, by omega, frameOf_b4_toNat_of_constant _ _⟩

/-- Settles O33: the identifier adds 421, and byte 4 is the checksum of the operands (`frame_b4_toNat`). -/
theorem checksumConstantPart : Obligations.ChecksumConstantPart := by
  intro ch md st
  refine ⟨by rw [frame_b0, frame_b1]; rfl, by rw [frame_b0, frame_b1]; rfl, frameOf_b4_toNat_of_constant _ _, ?_⟩
  rw [frame_b4_toNat]; omega

/-- Settles O34: bytes 2 and 3 add up to at most 510, so each checksum has two sums (`frameOf_b4_eq_iff_sum`). -/
theorem checksumEdgeResults : Obligations.ChecksumEdgeResults := by
  refine ⟨fun b2 b3 => ?_, rfl, rfl, rfl, rfl⟩
  have hsum : b2.toNat + b3.toNat ≤ 510 := by have := b2.isLt; have := b3.isLt; omega
  have h00 : (0x00 : Byte).toNat = 0 := rfl
  have hFF : (0xFF : Byte).toNat = 255 := rfl
  have hA5 : (0xA5 : Byte).toNat = 165 := rfl
  simp only [frameOf_b4_eq_iff_sum, h00, hFF, hA5]
  omega

end Sys2Proof.Machine

/-! PROOFS. 43_symbol_mapper.md and 44_descriptor.md: the payload by its positions, the frame read back from it, the
descriptor around it, and the statements O36 to O41. -/

namespace Sys2Proof.Machine

/-! ### The payload by its positions -/

/-- The token of the bits 2k and 2k + 1 is the characters at 3k, 3k + 1 and 3k + 2 (R56, R103). -/
theorem token_eq_charAt (f : Frame) (k : Nat) :
    token (f.fbit (2 * k)) (f.fbit (2 * k + 1)) = [charAt f (3 * k), charAt f (3 * k + 1), charAt f (3 * k + 2)] := by
  have hdiv1 : (3 * k + 1) / 3 = k := by omega
  have hmod1 : (3 * k + 1) % 3 = 1 := by omega
  have hmod2 : (3 * k + 2) % 3 = 2 := by omega
  simp [token, charAt, hdiv1, hmod1, hmod2]

/-- The first `n` tokens are the characters at the first `3 * n` positions (R102, R103). -/
theorem tokens_eq_map_charAt (f : Frame) (n : Nat) :
    ((List.range n).flatMap fun k => token (f.fbit (2 * k)) (f.fbit (2 * k + 1))) =
      (List.range (3 * n)).map (charAt f) := by
  induction n with
  | zero => rfl
  | succ n ih =>
    rw [Nat.mul_succ, List.range_succ, List.range_add, List.flatMap_append, List.map_append, ih,
      List.flatMap_singleton, token_eq_charAt]
    rfl

/-- The payload is the characters at the positions 0 to 59 (R103, R104). -/
theorem payload_eq_map_charAt (f : Frame) : payload f = (List.range 60).map (charAt f) :=
  tokens_eq_map_charAt f 20

@[simp] theorem payload_length (f : Frame) : (payload f).length = 60 := by
  rw [payload_eq_map_charAt, List.length_map, List.length_range]

/-- The character of the payload at a position (R103). -/
theorem payload_getElem? (f : Frame) {p : Nat} (hp : p < 60) : (payload f)[p]? = some (charAt f p) := by
  rw [payload_eq_map_charAt, List.getElem?_map, List.getElem?_range hp]; rfl

/-- Every third character is a space (R103). -/
theorem charAt_sep (f : Frame) {p : Nat} (hp : p % 3 = 2) : charAt f p = sep := if_pos hp

/-- The other characters are symbols (R103). -/
theorem charAt_sym (f : Frame) {p : Nat} (hp : p % 3 ≠ 2) :
    charAt f p = sym (f.fbit (2 * (p / 3) + p % 3)) := if_neg hp

/-- No symbol is a space (R5). -/
theorem sym_ne_sep (b : Bool) : sym b ≠ sep := by
  cases b <;> decide

/-- Three characters of a stretch of positions. -/
theorem range_drop_take_three {k n : Nat} (hk : k < n) :
    ((List.range (3 * n)).drop (3 * k)).take 3 = [3 * k, 3 * k + 1, 3 * k + 2] := by
  rw [List.range_eq_range', List.drop_range', List.take_range'_of_length_ge (by omega)]
  simp [List.range'_succ]

/-! ### The constant beginning -/

/-- The first 24 characters show the first 16 bits only (R107). -/
theorem charAt_congr {f g : Frame} (h : ∀ j < 16, f.fbit j = g.fbit j) {p : Nat} (hp : p < 24) :
    charAt f p = charAt g p := by
  by_cases h2 : p % 3 = 2
  · rw [charAt_sep f h2, charAt_sep g h2]
  · rw [charAt_sym f h2, charAt_sym g h2, h _ (by omega)]

/-- The first 24 characters are those of any one command, since the first 16 bits are the identifier (R107). -/
theorem payload_take_common (ch md ch' md' : Nibble) (st st' : Nat) :
    (payload (frame ch md st)).take 24 = (payload (frame ch' md' st')).take 24 := by
  have hbits : ∀ j < 16, (frame ch md st).fbit j = (frame ch' md' st').fbit j := fun j hj => by
    rw [frame_fbit_identifier ch md st hj, frame_fbit_identifier ch' md' st' hj]
  rw [payload_eq_map_charAt, payload_eq_map_charAt, ← List.map_take, ← List.map_take, List.take_range]
  exact List.map_congr_left fun p hp => charAt_congr hbits (List.mem_range.1 hp)

/-! ### The frame read back -/

@[simp] theorem symBit_sym (b : Bool) : symBit (sym b) = some b := by
  cases b <;> decide

/-- A token gives back its two bits (R108). -/
theorem payloadBits_token_append (a b : Bool) {t : Text} {bits : List Bool} (h : payloadBits t = some bits) :
    payloadBits (token a b ++ t) = some (a :: b :: bits) := by
  simp [token, payloadBits, h]

/-- Tokens give back their bits in order (R108). -/
theorem payloadBits_tokens (a b : Nat → Bool) (ks : List Nat) :
    payloadBits (ks.flatMap fun k => token (a k) (b k)) = some (ks.flatMap fun k => [a k, b k]) := by
  induction ks with
  | nil => rfl
  | cons k ks ih =>
    rw [List.flatMap_cons, List.flatMap_cons]
    exact payloadBits_token_append (a k) (b k) ih

/-- Pairs of bits in stream order are the bits in stream order (R100, R108). -/
theorem pairs_eq_map_fbit (f : Frame) (n : Nat) :
    ((List.range n).flatMap fun k => [f.fbit (2 * k), f.fbit (2 * k + 1)]) = (List.range (2 * n)).map f.fbit := by
  induction n with
  | zero => rfl
  | succ n ih =>
    rw [Nat.mul_succ, List.range_succ, List.range_add, List.flatMap_append, List.map_append, ih,
      List.flatMap_singleton]
    rfl

/-- The payload gives back the 40 bits of the frame (R108). -/
theorem payloadBits_payload (f : Frame) : payloadBits (payload f) = some (frameBits f) := by
  have hpairs : frameBits f = (List.range 20).flatMap fun k => [f.fbit (2 * k), f.fbit (2 * k + 1)] :=
    (pairs_eq_map_fbit f 20).symm
  rw [hpairs]
  exact payloadBits_tokens (fun k => f.fbit (2 * k)) (fun k => f.fbit (2 * k + 1)) (List.range 20)

/-- One more bit at the end of a number. -/
theorem bitsToNat_append_singleton (bits : List Bool) (b : Bool) :
    bitsToNat (bits ++ [b]) = 2 * bitsToNat bits + b.toNat := by
  rw [bitsToNat, List.foldl_append]; rfl

/-- The first `n` bits in stream order are the upper `n` bits of the frame word (R32, R108). -/
theorem bitsToNat_map_fbit (f : Frame) {n : Nat} (hn : n ≤ 40) :
    bitsToNat ((List.range n).map f.fbit) = f.word40.toNat / 2 ^ (40 - n) := by
  induction n with
  | zero => exact (Nat.div_eq_of_lt f.word40.isLt).symm
  | succ n ih =>
    have hbit : (f.fbit n).toNat = f.word40.toNat / 2 ^ (39 - n) % 2 := by
      rw [f.fbit_eq_word40 (by omega)]
      exact Nat.toNat_testBit _ _
    have hpow : 2 ^ (40 - n) = 2 ^ (39 - n) * 2 := by rw [← Nat.pow_succ]; congr 1; omega
    have hexp : 40 - (n + 1) = 39 - n := by omega
    rw [List.range_succ, List.map_append, List.map_singleton, bitsToNat_append_singleton, ih (by omega), hbit, hpow,
      hexp, ← Nat.div_div_eq_div_mul]
    omega

/-- The 40 bits as a number are the frame word (R108). -/
theorem bitsToNat_frameBits (f : Frame) : bitsToNat (frameBits f) = f.word40.toNat := by
  rw [frameBits, bitsToNat_map_fbit f le_rfl, Nat.sub_self, Nat.pow_zero, Nat.div_one]

/-- A payload gives back its frame (R108). -/
theorem frameOfPayload_payload (f : Frame) : frameOfPayload (payload f) = some f := by
  have hlen : (frameBits f).length = 40 := by rw [frameBits, List.length_map, List.length_range]
  simp only [frameOfPayload, payloadBits_payload, if_pos hlen, bitsToNat_frameBits]
  rw [BitVec.ofNat_toNat, BitVec.setWidth_eq, Frame.ofWord_word40]

/-- The payload determines the frame (R108). -/
theorem payload_injective {f g : Frame} (h : payload f = payload g) : f = g :=
  Option.some.inj (by rw [← frameOfPayload_payload f, h, frameOfPayload_payload])

/-! ### The descriptor -/

section
variable (c : Config)

/-- Units of joined texts add up (R112). -/
theorem units_append (s t : Text) : units c (s ++ t) = units c s + units c t := by
  rw [units, List.filter_append, List.length_append, Nat.mul_add]; rfl

/-- A token has two characters that are no space (R56). -/
theorem units_token (a b : Bool) : units c (token a b) = c.unitsPerChar * 2 := by
  simp [units, token, sym_ne_sep]

/-- The units of a row of tokens (R112). -/
theorem units_tokens (a b : Nat → Bool) (ks : List Nat) :
    units c (ks.flatMap fun k => token (a k) (b k)) = ks.length * (c.unitsPerChar * 2) := by
  induction ks with
  | nil => simp [units]
  | cons k ks ih => rw [List.flatMap_cons, units_append, units_token, ih, List.length_cons, Nat.succ_mul, Nat.add_comm]

/-- A payload has 40 characters that are no space (R112). -/
theorem units_payload (f : Frame) : units c (payload f) = 40 * c.unitsPerChar := by
  have h := units_tokens c (fun k => f.fbit (2 * k)) (fun k => f.fbit (2 * k + 1)) (List.range 20)
  rw [List.length_range] at h
  rw [payload, h]; omega

/-- The data of a descriptor, grouped to the right (R111). -/
theorem descriptor_data (f : Frame) : (descriptor c f).data = c.preamble ++ (payload f ++ c.postamble) :=
  List.append_assoc _ _ _

/-- The data through the first 24 characters of the payload. -/
theorem descriptor_data_take (f : Frame) :
    (descriptor c f).data.take (c.preamble.length + 24) = c.preamble ++ (payload f).take 24 := by
  rw [descriptor_data, List.take_length_add_append, List.take_append_of_le_length (by rw [payload_length]; decide)]

/-- The data behind the payload. -/
theorem descriptor_data_drop (f : Frame) :
    (descriptor c f).data.drop (c.preamble.length + 60) = c.postamble := by
  rw [descriptor_data, List.drop_length_add_append, ← payload_length f, List.drop_left]

end

/-! ### The statements -/

/-- Settles O36: the payload is cut at the positions of its tokens. -/
theorem tokenTable : Obligations.TokenTable := by
  refine ⟨rfl, rfl, rfl, rfl, fun f k hk => ?_⟩
  rw [payload_eq_map_charAt, ← List.map_drop, ← List.map_take]
  exact (congrArg (List.map (charAt f)) (range_drop_take_three hk)).trans (token_eq_charAt f k).symm

/-- Settles O37: the payload lists the characters of its positions (`payload_eq_map_charAt`). -/
theorem payloadCharacters : Obligations.PayloadCharacters := by
  intro f
  refine ⟨payload_length f, payload_getElem? f (by decide), fun p hp => ⟨payload_getElem? f hp, charAt_sep f, ?_⟩⟩
  intro h2
  rw [charAt_sym f h2]
  exact ⟨rfl, sym_ne_sep _⟩

/-- Settles O38: the first 24 characters are those of one command (`payload_take_common`), evaluated. -/
theorem payloadConstantPrefix : Obligations.PayloadConstantPrefix :=
  fun ch md st => (payload_take_common ch md 0 0 st 0).trans (by decide)

/-- Settles O39: the 40 bits are read back from the payload, and the command word from the frame word. -/
theorem payloadDeterminesTheFrame : Obligations.PayloadDeterminesTheFrame := by
  refine ⟨frameOfPayload_payload, fun f g => payload_injective, fun ch md ch' md' st st' h => ?_⟩
  rw [← frame_word40_cmd16, payload_injective h, frame_word40_cmd16]

/-- Settles O40: the record is as defined; payloads have one length and one beginning. -/
theorem descriptorDependsOnlyOnThePayload : Obligations.DescriptorDependsOnlyOnThePayload := by
  refine ⟨fun c f => rfl, fun c ch md ch' md' st st' => ⟨?_, ?_, ?_⟩⟩
  · simp [descriptor]
  · rw [descriptor_data_take, descriptor_data_take, payload_take_common ch md ch' md' st st']
  · rw [descriptor_data_drop, descriptor_data_drop]

/-- Settles O41: units add up over the parts of the data, and the payload has 40 symbols (`units_payload`). -/
theorem descriptorHolds256Units : Obligations.DescriptorHolds256Units := by
  intro c f hlegal
  have hcount : units c c.preamble + 40 * c.unitsPerChar + units c c.postamble = totalBits := by
    rw [configLegal, Bool.and_eq_true, decide_eq_true_iff, decide_eq_true_iff] at hlegal
    exact hlegal.2
  have hunits : units c (descriptor c f).data = totalBits := by
    rw [descriptor_data, units_append, units_append, units_payload, ← Nat.add_assoc, hcount]
  exact ⟨hunits, hunits⟩

end Sys2Proof.Machine

/-! PROOFS. 45_sequencer.md, 60_exceptions.md and 70_reset_and_hazards.md: when a step is refused, runs composed of single
steps with what they hand out and accept, the stream of one command, and the statements O15, O42, O47, O50, O51, O53 to
O55. -/

namespace Sys2Proof.Machine

/-! ### Refused steps -/

/-- A result is an error exactly when it is no value. -/
theorem except_error_iff {ε α : Type} {x : Except ε α} : (∃ r, x = .error r) ↔ ¬∃ a, x = .ok a := by
  cases x <;> simp

/-- A sample comes through exactly when every port does (R150). -/
theorem sample_ok_iff {d : Drive} :
    (∃ p, d.sample = .ok p) ↔
      (∃ b, d.rst.read .rst = .ok b) ∧ (∃ b, d.cmdValid.read .cmdValid = .ok b) ∧
      (∃ n, d.cmdChannel.readNibble .cmdChannel .channelTooWide = .ok n) ∧
      (∃ n, d.cmdMode.readNibble .cmdMode .modeTooWide = .ok n) ∧
      (∃ n, d.cmdStrength.readStrength = .ok n) ∧ (∃ b, d.symReady.read .symReady = .ok b) := by
  constructor
  · rintro ⟨p, h⟩
    obtain ⟨h1, h2, h3, h4, h5, h6⟩ := sample_ok h
    exact ⟨⟨_, h1⟩, ⟨_, h2⟩, ⟨_, h3⟩, ⟨_, h4⟩, ⟨_, h5⟩, ⟨_, h6⟩⟩
  · rintro ⟨⟨rst, h1⟩, ⟨valid, h2⟩, ⟨channel, h3⟩, ⟨mode, h4⟩, ⟨strength, h5⟩, ⟨ready, h6⟩⟩
    refine ⟨⟨rst, valid, channel, mode, strength, ready⟩, ?_⟩
    simp [Drive.sample, h1, h2, h3, h4, h5, h6, bind, Except.bind, pure, Except.pure]

/-- When a sample is refused: a port that is not two-valued, or a channel or mode above 15 (R150, R170). -/
theorem sample_error_iff {d : Drive} :
    (∃ r, d.sample = .error r) ↔
      d.rst = .unknown ∨ d.cmdValid = .unknown ∨ d.symReady = .unknown ∨ d.cmdChannel = .unknown ∨
      d.cmdMode = .unknown ∨ d.cmdStrength = .unknown ∨
      (∃ v, 16 ≤ v ∧ d.cmdChannel = .value v) ∨ (∃ v, 16 ≤ v ∧ d.cmdMode = .value v) := by
  rw [except_error_iff, sample_ok_iff]
  simp only [not_and_or, ← except_error_iff, Level.read_error, Bus.readNibble_error, Bus.readStrength_error]
  exact iff_of_eq (by ac_rfl)

section
variable {s : State}

/-- A step is refused exactly when the boundary refuses its inputs (R150). -/
theorem step_refused_iff : (∃ r, step s = .refused r) ↔ ∃ r, s.inputs = .error r := by
  obtain ⟨r, hin, hstep⟩ | ⟨p, s', hin, hstep⟩ := step_of_inputs s <;> simp [hin, hstep]

/-- When the boundary refuses: a refused sample, or a step other than RESET before the first RESET (R150, R162). -/
theorem inputs_error_iff :
    (∃ r, s.inputs = .error r) ↔
      (∃ r, s.drive.sample = .error r) ∨ (s.resetSeen = false ∧ s.drive.rst = .low) := by
  rw [State.inputs]
  cases h : s.drive.sample with
  | error r => simp
  | ok p =>
    have hlow : s.drive.rst = .low ↔ p.rst = false := by
      rw [← Level.read_false (p := .rst), (sample_ok h).1, Except.ok.injEq]
    rw [hlow]
    cases hr : p.rst <;> cases hs : s.resetSeen <;> simp [hr]

/-- Every step uses up its sample and leaves the later ones (log 1). -/
theorem step_ports {s' : State} (h : step s = .next s') : s'.script = s.script.tail ∧ s'.rest = s.rest := by
  obtain ⟨p, -, hcases⟩ := step_next_cases h
  obtain ⟨-, rfl⟩ | ⟨-, -, -, -, rfl⟩ | ⟨-, -, -, -, rfl⟩ | ⟨-, -, -, -, rfl⟩ := hcases <;> simp

/-- A step with refused inputs is refused. -/
theorem step_of_inputs_error {r : Refusal} (h : s.inputs = .error r) : step s = .refused r := by
  rw [step, h]

/-- Before the first RESET a scheduled step other than RESET is outside the spec (R162). -/
theorem inputs_scheduled_before_reset (hs : s.resetSeen = false) {p : Inputs} (hr : p.rst = false) (ps : List Inputs) :
    (s.scheduled (p :: ps)).inputs = .error .beforeFirstReset := by
  simp [State.inputs, hs, hr]

/-- A step that transfers no command reads `rst` and `sym_ready` alone (R39, R40). -/
theorem step_of_no_command {p : Inputs} (hp : s.inputs = .ok p) (hc : s.commandTransfer = none) :
    step s = .next (if p.rst then resetBlock s.advance
      else if s.busy && p.symReady then emitChar s.advance else s.advance) := by
  cases hr : p.rst with
  | true => exact (step_of_reset hp hr).1
  | false =>
    cases hb : s.busy with
    | true =>
      cases hy : p.symReady with
      | true => exact (step_of_emit hp hb hr hy).1
      | false => exact (step_of_hold hp hr (.inr ⟨hb, hy⟩)).1
    | false =>
      have hv : p.cmdValid = false := by
        rw [commandTransfer_of_inputs hp] at hc
        simpa [hr, hb] using hc
      exact (step_of_hold hp hr (.inl ⟨hb, hv⟩)).1

end

/-- A command presented to an idle block out of reset runs as `exec` of that command (log 6). -/
theorem step_presenting (i : Instr) (s : State) :
    step (s.presenting i.channel i.mode i.strength) =
      exec i { s with busy := false, pos := 0, resetSeen := true } := by
  have hready : State.ready { s with busy := false, pos := 0, resetSeen := true } := ⟨rfl, rfl⟩
  have hp := inputs_scheduled_of_resetSeen (presentInputs i.channel i.mode i.strength) hready.1
  rw [hready.exec_eq]
  exact (step_of_accept hp hready rfl rfl).1

/-! ### Runs one after the other -/

section
variable {s t : State} {m : Nat} (h : runSteps m s = .next t) (n : Nat)
include h

/-- A run goes on from where its beginning ends. -/
theorem runSteps_add : runSteps (m + n) s = runSteps n t := by
  induction m generalizing s with
  | zero => cases h; rw [Nat.zero_add]
  | succ m ih =>
    obtain ⟨s', hfirst, hrest⟩ := runSteps_succ_eq_next.1 h
    rw [Nat.succ_add, runSteps, hfirst]
    exact ih hrest

/-- The observations of a run are those of its beginning and those from there on. -/
theorem observations_add : observations (m + n) s = observations m s ++ observations n t := by
  induction m generalizing s with
  | zero => cases h; rw [Nat.zero_add]; rfl
  | succ m ih =>
    obtain ⟨s', hfirst, hrest⟩ := runSteps_succ_eq_next.1 h
    rw [Nat.succ_add, observations, observations, hfirst]
    exact congrArg (s.observe :: ·) (ih hrest)

/-- The characters of a run, in two parts. -/
theorem transfers_add : transfers (m + n) s = transfers m s ++ transfers n t := by
  rw [transfers, observations_add h, List.filterMap_append]; rfl

/-- The commands of a run, in two parts. -/
theorem commandsAccepted_add : commandsAccepted (m + n) s = commandsAccepted m s ++ commandsAccepted n t := by
  rw [commandsAccepted, observations_add h, List.filterMap_append]; rfl

end

/-- These inputs, scheduled before any others, take the block `s` to `t`, hand out the characters `cs` and have the
commands `ks` accepted. -/
structure Ran (ps : List Inputs) (s t : State) (cs : List CharTransfer) (ks : List CommandTransfer) : Prop where
  steps : ∀ qs, runSteps ps.length (s.scheduled (ps ++ qs)) = .next (t.scheduled qs)
  chars : ∀ qs, transfers ps.length (s.scheduled (ps ++ qs)) = cs
  commands : ∀ qs, commandsAccepted ps.length (s.scheduled (ps ++ qs)) = ks

namespace Ran

section
variable {s t u : State} {p : Inputs} {ps qs : List Inputs} {cs ds : List CharTransfer} {ks ls : List CommandTransfer}

/-- No inputs, no change. -/
theorem nil (s : State) : Ran [] s s [] [] :=
  ⟨fun _ => rfl, fun _ => rfl, fun _ => rfl⟩

/-- One run after the other. -/
theorem trans (h : Ran ps s t cs ks) (h' : Ran qs t u ds ls) : Ran (ps ++ qs) s u (cs ++ ds) (ks ++ ls) := by
  refine ⟨fun rs => ?_, fun rs => ?_, fun rs => ?_⟩
  · rw [List.length_append, List.append_assoc, runSteps_add (h.steps _), h'.steps]
  · rw [List.length_append, List.append_assoc, transfers_add (h.steps _), h.chars, h'.chars]
  · rw [List.length_append, List.append_assoc, commandsAccepted_add (h.steps _), h.commands, h'.commands]

/-- A single step as a run. -/
theorem single {c : Option CharTransfer} {k : Option CommandTransfer}
    (h : ∀ qs, step (s.scheduled (p :: qs)) = .next (t.scheduled qs) ∧
      (s.scheduled (p :: qs)).commandTransfer = k ∧ (s.scheduled (p :: qs)).charTransfer = c) :
    Ran [p] s t c.toList k.toList := by
  refine ⟨fun qs => ?_, fun qs => ?_, fun qs => ?_⟩ <;> obtain ⟨hstep, hcmd, hchar⟩ := h qs
  · simp [runSteps, hstep]
  · cases c <;> simp [transfers, observations, State.observe, hstep, hchar]
  · cases k <;> simp [commandsAccepted, observations, State.observe, hstep, hcmd]

/-- A RESET step (R121). -/
theorem reset (s : State) (hr : p.rst = true) : Ran [p] s (resetBlock s) [] [] :=
  single (c := none) (k := none) fun qs => step_of_reset (inputs_scheduled s p qs (by simp [hr])) hr

/-- An ACCEPT step (R122). -/
theorem accept (hready : s.ready) (hr : p.rst = false) (hv : p.cmdValid = true) :
    Ran [p] s (acceptCommand p.cmdChannel p.cmdMode p.cmdStrength s) []
      [⟨p.cmdChannel, p.cmdMode, p.cmdStrength⟩] :=
  single (c := none) (k := some ⟨p.cmdChannel, p.cmdMode, p.cmdStrength⟩) fun qs =>
    step_of_accept (inputs_scheduled s p qs (by simp [hready.1])) hready hr hv

/-- An EMIT step (R123). -/
theorem emit (hs : s.resetSeen = true) (hb : s.busy = true) (hr : p.rst = false) (hy : p.symReady = true) :
    Ran [p] s (emitChar s) [⟨s.symChar, s.symLast⟩] [] :=
  single (c := some ⟨s.symChar, s.symLast⟩) (k := none) fun qs => by
    rw [← emitChar_scheduled]
    exact step_of_emit (inputs_scheduled s p qs (by simp [hs])) hb hr hy

/-- A HOLD step (R124). -/
theorem hold (hs : s.resetSeen = true) (hr : p.rst = false)
    (h : (s.busy = false ∧ p.cmdValid = false) ∨ (s.busy = true ∧ p.symReady = false)) : Ran [p] s s [] [] :=
  single (c := none) (k := none) fun qs => step_of_hold (inputs_scheduled s p qs (by simp [hs])) hr h

/-- Steps that each change nothing and transfer nothing do so together. -/
theorem of_forall (h : ∀ q ∈ qs, Ran [q] s s [] []) : Ran qs s s [] [] := by
  induction qs with
  | nil => exact nil s
  | cons q qs ih => exact (h q List.mem_cons_self).trans (ih fun r hr => h r (List.mem_cons_of_mem q hr))

/-- A ready block to which no command is presented stays as it is (R124). -/
theorem idle (hready : s.ready) (hr : noReset qs) (hv : ∀ q ∈ qs, q.cmdValid = false) : Ran qs s s [] [] :=
  of_forall fun q hq => hold hready.1 (hr q hq) (.inl ⟨hready.2, hv q hq⟩)

/-- A block right after RESET to which no command is presented stays as it is, through further RESET steps (R121, R124). -/
theorem after_reset (s : State) (hv : ∀ q ∈ qs, q.cmdValid = false) : Ran qs (resetBlock s) (resetBlock s) [] [] :=
  of_forall fun q hq => by
    cases hr : q.rst with
    | true => exact reset (resetBlock s) hr
    | false => exact hold rfl hr (.inl ⟨rfl, hv q hq⟩)

/-- A run with nothing scheduled behind it. -/
theorem steps_nil (h : Ran ps s t cs ks) : runSteps ps.length (s.scheduled ps) = .next t := by
  have hsteps := h.steps []
  rwa [List.append_nil] at hsteps

/-- The characters of a run with nothing scheduled behind it. -/
theorem chars_nil (h : Ran ps s t cs ks) : transfers ps.length (s.scheduled ps) = cs := by
  have hchars := h.chars []
  rwa [List.append_nil] at hchars

/-- The commands of a run with nothing scheduled behind it. -/
theorem commands_nil (h : Ran ps s t cs ks) : commandsAccepted ps.length (s.scheduled ps) = ks := by
  have hcommands := h.commands []
  rwa [List.append_nil] at hcommands

end

end Ran

/-! ### The stream of one command -/

/-- The block at this position of its payload. -/
def State.atPos (s : State) (k : Nat) : State := { s with pos := BitVec.ofNat 6 k }

/-- The character at a position with its mark (R127). -/
def markedChar (f : Frame) (p : Nat) : CharTransfer := ⟨charAt f p, p == 59⟩

section
variable {s : State} {k : Nat}

/-- The position as a number. -/
theorem State.atPos_pos_toNat (hk : k ≤ 59) : (s.atPos k).pos.toNat = k := by
  rw [State.atPos, BitVec.toNat_ofNat]
  exact Nat.mod_eq_of_lt (by omega)

/-- What the symbol port offers at a position (R22, R103). -/
theorem State.atPos_offer (hb : s.busy = true) (hk : k ≤ 59) :
    CharTransfer.mk (s.atPos k).symChar (s.atPos k).symLast = markedChar s.frame k := by
  have hbusy : (s.atPos k).busy = true := hb
  rw [State.symLast_of_busy hbusy, State.symChar, State.atPos_pos_toNat hk]
  rfl

/-- EMIT before the last position (R123). -/
theorem emitChar_atPos (hk : k < 59) : emitChar (s.atPos k) = s.atPos (k + 1) := by
  have hpos := State.atPos_pos_toNat (s := s) hk.le
  rw [emitChar_of_not_last (by omega), hpos]
  rfl

/-- EMIT at the last position (R123). -/
theorem emitChar_atPos_last : emitChar (s.atPos 59) = { s with pos := 0, busy := false } :=
  emitChar_of_last (State.atPos_pos_toNat le_rfl)

/-- While fewer than 60 characters have been taken, each ready step hands out the next one and the others hold (R128). -/
theorem Ran.stream {ps : List Inputs} (hs : s.resetSeen = true) (hb : s.busy = true) (hr : noReset ps)
    (hk : k + readyCount ps ≤ 59) :
    Ran ps (s.atPos k) (s.atPos (k + readyCount ps)) ((List.range' k (readyCount ps)).map (markedChar s.frame)) [] := by
  induction ps generalizing k with
  | nil => exact .nil _
  | cons p ps ih =>
    have hp : p.rst = false := hr p List.mem_cons_self
    have hps : noReset ps := fun q hq => hr q (List.mem_cons_of_mem p hq)
    cases hy : p.symReady with
    | false =>
      have hcount : readyCount (p :: ps) = readyCount ps := List.countP_cons_of_neg (by simp [hy])
      rw [hcount] at hk ⊢
      exact (Ran.hold (s := s.atPos k) hs hp (.inr ⟨hb, hy⟩)).trans (ih hps hk)
    | true =>
      have hcount : readyCount (p :: ps) = readyCount ps + 1 := List.countP_cons_of_pos (by simp [hy])
      rw [hcount] at hk ⊢
      have hemit := Ran.emit (s := s.atPos k) hs hb hp hy
      rw [State.atPos_offer hb (by omega), emitChar_atPos (by omega)] at hemit
      have hrest := ih (k := k + 1) hps (by omega)
      have hpos : k + (readyCount ps + 1) = k + 1 + readyCount ps := by omega
      rw [List.range'_succ, List.map_cons, hpos]
      exact hemit.trans hrest

end

/-- The payload with its marks is its characters position by position. -/
theorem markedPayload_eq_map (f : Frame) : markedPayload f = (List.range 60).map (markedChar f) := rfl

/-- The payload with its marks, cut before the last character. -/
theorem markedPayload_eq_append (f : Frame) :
    markedPayload f = (List.range' 0 59).map (markedChar f) ++ [markedChar f 59] := by
  rw [markedPayload_eq_map, List.range_succ, List.map_append, List.range_eq_range']
  rfl

/-- The beginning of the payload with its marks. -/
theorem markedPayload_take (f : Frame) {n : Nat} (hn : n ≤ 60) :
    (markedPayload f).take n = (List.range' 0 n).map (markedChar f) := by
  rw [markedPayload_eq_map, ← List.map_take, List.take_range, Nat.min_eq_left hn, List.range_eq_range']

/-- Without their marks the characters are the payload (R104). -/
theorem markedPayload_map_char (f : Frame) : (markedPayload f).map CharTransfer.char = payload f := by
  rw [markedPayload_eq_map, List.map_map, payload_eq_map_charAt]
  rfl

/-- The mark is on the last character alone (R127). -/
theorem markedPayload_last (f : Frame) {n : Nat} (hn : n < 60) :
    ((markedPayload f)[n]?).map CharTransfer.last = some (decide (n = 59)) := by
  rw [markedPayload_eq_map, List.getElem?_map, List.getElem?_range hn]
  rfl

section
variable {s : State} {p final : Inputs} {ps : List Inputs} (hready : s.ready) (hr : p.rst = false)
  (hv : p.cmdValid = true)

/-- The block after this command is accepted. -/
def State.accepting (s : State) (p : Inputs) : State := acceptCommand p.cmdChannel p.cmdMode p.cmdStrength s

/-- The block after the payload of this command is handed out. -/
def State.delivered (s : State) (p : Inputs) : State := { s.accepting p with busy := false }

include hready hr hv

/-- After ACCEPT, with at most 59 ready steps, the block streams and has handed out as many characters (R128, R130). -/
theorem Ran.command_begun (hps : noReset ps) (hcount : readyCount ps ≤ 59) :
    Ran (p :: ps) s ((s.accepting p).atPos (readyCount ps))
      ((List.range' 0 (readyCount ps)).map (markedChar (Machine.frame p.cmdChannel p.cmdMode p.cmdStrength)))
      [⟨p.cmdChannel, p.cmdMode, p.cmdStrength⟩] := by
  have hstream := Ran.stream (s := s.accepting p) (k := 0) (ps := ps) hready.1 rfl hps (by omega)
  rw [Nat.zero_add] at hstream
  exact (Ran.accept hready hr hv).trans hstream

/-- An accepted command hands out its payload, and leaves the block idle with its frame (R128). -/
theorem Ran.command (hps : noReset ps) (hcount : readyCount ps = 59) (hfr : final.rst = false)
    (hfy : final.symReady = true) :
    Ran (p :: ps ++ [final]) s (s.delivered p)
      (markedPayload (Machine.frame p.cmdChannel p.cmdMode p.cmdStrength))
      [⟨p.cmdChannel, p.cmdMode, p.cmdStrength⟩] := by
  have hbegun := Ran.command_begun hready hr hv hps hcount.le
  have hlast := Ran.emit (s := (s.accepting p).atPos 59) hready.1 rfl hfr hfy
  rw [State.atPos_offer rfl le_rfl, emitChar_atPos_last] at hlast
  rw [hcount] at hbegun
  rw [markedPayload_eq_append]
  exact hbegun.trans hlast

/-- From the step after ACCEPT the frame of the command stands while the block waits (R122, R128). -/
theorem runSteps_while_streaming (hps : noReset ps) (hcount : readyCount ps ≤ 59) (rest : List Inputs) {n : Nat}
    (hn : n ≤ ps.length) :
    ∃ t, runSteps (n + 1) (s.scheduled (p :: ps ++ rest)) = .next t ∧
      t.frame = Machine.frame p.cmdChannel p.cmdMode p.cmdStrength := by
  have htake : noReset (ps.take n) := fun q hq => hps q (List.mem_of_mem_take hq)
  have hready' : readyCount (ps.take n) ≤ 59 := (List.take_sublist n ps).countP_le.trans hcount
  have hsteps := (Ran.command_begun hready hr hv htake hready').steps (ps.drop n ++ rest)
  rw [List.cons_append, ← List.append_assoc, List.take_append_drop, List.length_cons, List.length_take,
    Nat.min_eq_left hn] at hsteps
  exact ⟨_, hsteps, rfl⟩

/-- After the 60th character the block stays idle with the frame of the command, until another one comes (R123, R128). -/
theorem runSteps_after_command (hps : noReset ps) (hcount : readyCount ps = 59) (hfr : final.rst = false)
    (hfy : final.symReady = true) {rest : List Inputs} (hrr : noReset rest) (hrv : ∀ q ∈ rest, q.cmdValid = false)
    {m : Nat} (hm : m ≤ rest.length) :
    ∃ t, runSteps (ps.length + 2 + m) (s.scheduled (p :: ps ++ [final] ++ rest)) = .next t ∧
      t.frame = Machine.frame p.cmdChannel p.cmdMode p.cmdStrength ∧ t.busy = false := by
  have hidle := Ran.idle (s := s.delivered p) (qs := rest.take m) ⟨hready.1, rfl⟩
    (fun q hq => hrr q (List.mem_of_mem_take hq)) (fun q hq => hrv q (List.mem_of_mem_take hq))
  have hsteps := ((Ran.command hready hr hv hps hcount hfr hfy).trans hidle).steps (rest.drop m)
  have hlen : (p :: ps ++ [final]).length = ps.length + 2 := by simp
  rw [List.append_assoc _ (rest.take m), List.take_append_drop, List.length_append, hlen, List.length_take,
    Nat.min_eq_left hm] at hsteps
  exact ⟨_, hsteps, rfl, rfl⟩

end

/-! ### Runs made of segments -/

/-- The payload of an accepted command with its marks. -/
def CommandTransfer.characters (c : CommandTransfer) : List CharTransfer :=
  markedPayload (Machine.frame c.channel c.mode c.strength)

/-- A segment hands out the payloads of the commands it accepts. -/
theorem Segment.characters_eq (g : Segment) : g.characters = g.commands.flatMap CommandTransfer.characters := by
  cases g with
  | command p waiting final => exact (List.flatMap_singleton _ _).symm
  | _ => rfl

/-- A complete segment takes a ready block to a ready one (R131). -/
theorem Ran.segment {g : Segment} (hg : g.complete) {s : State} (hready : s.ready) :
    ∃ t, t.ready ∧ t.script = s.script ∧ Ran g.inputs s t g.characters g.commands := by
  cases g with
  | resetStep p => exact ⟨resetBlock s, ⟨rfl, rfl⟩, rfl, .reset s rfl⟩
  | idleStep p => exact ⟨s, hready, rfl, .hold hready.1 rfl (.inl ⟨hready.2, rfl⟩)⟩
  | command p waiting final =>
    obtain ⟨hps, hcount, hfr, hfy⟩ := hg
    exact ⟨s.delivered { p with rst := false, cmdValid := true }, ⟨hready.1, rfl⟩, rfl,
      Ran.command hready rfl rfl hps hcount hfr hfy⟩

/-- A run of complete segments takes a ready block to a ready one (R131). -/
theorem Ran.segments {gs : List Segment} (hgs : ∀ g ∈ gs, g.complete) {s : State} (hready : s.ready) :
    ∃ t, t.ready ∧ t.script = s.script ∧
      Ran (gs.flatMap Segment.inputs) s t (gs.flatMap Segment.characters) (gs.flatMap Segment.commands) := by
  induction gs generalizing s with
  | nil => exact ⟨s, hready, rfl, .nil s⟩
  | cons g gs ih =>
    obtain ⟨t, ht, hts, hfirst⟩ := Ran.segment (hgs g List.mem_cons_self) hready
    obtain ⟨u, hu, hus, hrest⟩ := ih (fun h hh => hgs h (List.mem_cons_of_mem g hh)) ht
    refine ⟨u, hu, hus.trans hts, ?_⟩
    rw [List.flatMap_cons, List.flatMap_cons, List.flatMap_cons]
    exact hfirst.trans hrest

/-- The characters of a run of segments follow from its commands (R131). -/
theorem flatMap_characters_eq (gs : List Segment) :
    gs.flatMap Segment.characters = (gs.flatMap Segment.commands).flatMap CommandTransfer.characters := by
  rw [List.flatMap_assoc]
  exact List.flatMap_congr fun g _ => g.characters_eq

/-! ### The statements -/

/-- Settles O15: a step that transfers no command reads `rst` and `sym_ready` alone (`step_of_no_command`), and the
boundary reads `rst` alone. -/
theorem commandInputsReadOnlyWhenAccepted : Obligations.CommandInputsReadOnlyWhenAccepted := by
  intro s p q ps hcp hcq hr hy
  cases hok : p.rst || s.resetSeen with
  | true =>
    have hp := inputs_scheduled s p ps hok
    have hq := inputs_scheduled s q ps (hr ▸ hok)
    rw [step_of_no_command hp hcp, step_of_no_command hq hcq, hr, hy]
    rfl
  | false =>
    obtain ⟨hpr, hs⟩ := Bool.or_eq_false_iff.1 hok
    rw [step_of_inputs_error (inputs_scheduled_before_reset hs hpr ps),
      step_of_inputs_error (inputs_scheduled_before_reset hs (hr ▸ hpr) ps)]

/-- Settles O42: the step is ACCEPT, whose effect is that of `exec` on a ready block; the block that presents a command is
ready (`step_presenting`). -/
theorem stepRunsTheDecodedCommand : Obligations.StepRunsTheDecodedCommand := by
  refine ⟨fun s p hready hr hv => ?_, fun s bytes i _ => step_presenting i s, fun s nbits w i hi => ?_⟩
  · obtain ⟨hch, hmd, hst⟩ := decodeCommand_operands p.cmdChannel p.cmdMode p.cmdStrength
    rw [hready.exec_eq, hch, hmd, hst]
    exact (step_of_accept (inputs_scheduled_of_resetSeen p hready.1) hready hr hv).1
  · rw [State.withFetchWord, hi]
    exact step_presenting i s

/-- Settles O47: a step is refused by the boundary alone (`step_refused_iff`), which refuses the listed inputs. -/
theorem stepRefusesOnlyOutsideTheSpec : Obligations.StepRefusesOnlyOutsideTheSpec := by
  intro s
  constructor
  · rw [step_refused_iff, inputs_error_iff, sample_error_iff]
    simp only [or_assoc]
  · intro hnot
    obtain ⟨r, -, hstep⟩ | ⟨p, s', -, hstep⟩ := step_of_inputs s
    · exact absurd ⟨r, hstep⟩ hnot
    · exact ⟨s', hstep, step_ports hstep⟩

/-- Settles O50: the run is `Ran.command_begun`, and the mark stands at position 59, which is not reached. -/
theorem payloadPrefixWhileStreaming : Obligations.PayloadPrefixWhileStreaming := by
  intro s p ps hready hr hv hps hcount
  have hran := Ran.command_begun hready hr hv hps hcount
  have htransfers := hran.chars_nil
  rw [List.length_cons] at htransfers
  refine ⟨?_, fun x hx => ?_, _, hran.steps_nil, rfl, State.atPos_pos_toNat hcount⟩
  · rw [htransfers, markedPayload_take _ (by omega)]
  · rw [htransfers] at hx
    obtain ⟨k, hk, rfl⟩ := List.mem_map.1 hx
    have hlt : k < 59 := by have := (List.mem_range'_1.1 hk).2; omega
    exact beq_eq_false_iff_ne.2 hlt.ne

/-- Settles O51: the command's run is `Ran.command`, after which the block idles (`Ran.idle`); the frame stands in every
state on the way (`runSteps_while_streaming`, `runSteps_after_command`). -/
theorem streamCorrectness : Obligations.StreamCorrectness := by
  intro s p final waiting after hready hr hv hw hcount hfr hfy ha hav f run
  have hcommand := Ran.command hready hr hv hw hcount hfr hfy
  have hlen : (p :: waiting ++ [final]).length = waiting.length + 2 := by simp
  refine ⟨?_, ?_, markedPayload_map_char f, fun n hn => markedPayload_last f hn, fun n hn => ?_⟩
  · have hall := (hcommand.trans (Ran.idle (s := s.delivered p) ⟨hready.1, rfl⟩ ha hav)).chars_nil
    rw [List.length_append, hlen, List.append_nil] at hall
    exact hall
  · rw [← hlen]
    exact hcommand.chars after
  · obtain hle | hgt := le_or_gt n waiting.length
    · obtain ⟨t, hsteps, hframe⟩ := runSteps_while_streaming hready hr hv hw hcount.le ([final] ++ after) hle
      rw [← List.append_assoc] at hsteps
      exact ⟨t, hsteps, congrArg Frame.word40 hframe, fun hge => absurd hge (by omega)⟩
    · obtain ⟨m, rfl⟩ : ∃ m, n = waiting.length + 1 + m := Nat.exists_eq_add_of_le hgt
      obtain ⟨t, hsteps, hframe, hidle⟩ :=
        runSteps_after_command hready hr hv hw hcount hfr hfy ha hav (m := m) (by omega)
      have hcounter : waiting.length + 1 + m + 1 = waiting.length + 2 + m := by omega
      rw [hcounter]
      exact ⟨t, hsteps, congrArg Frame.word40 hframe, fun _ => hidle⟩

/-- Settles O53: runs of segments compose (`Ran.segments`), and a segment's characters follow from its commands. -/
theorem transfersFollowTheAcceptedCommands : Obligations.TransfersFollowTheAcceptedCommands := by
  refine ⟨fun s gs hready hgs => ?_, fun s₁ s₂ gs hs hready₁ hready₂ hgs hhs hcommands => ?_⟩
  · obtain ⟨t, ht, hscript, hran⟩ := Ran.segments hgs hready
    exact ⟨hran.chars_nil, hran.commands_nil, t, hran.steps_nil, ht, hscript⟩
  · obtain ⟨t₁, -, -, hran₁⟩ := Ran.segments hgs hready₁
    obtain ⟨t₂, -, -, hran₂⟩ := Ran.segments hhs hready₂
    rw [hran₁.commands_nil, hran₂.commands_nil] at hcommands
    rw [hran₁.chars_nil, hran₂.chars_nil, flatMap_characters_eq, flatMap_characters_eq, hcommands]

/-- Settles O54: after the RESET step the block is as right after RESET for ever (`Ran.after_reset`). -/
theorem resetCutsThePayload : Obligations.ResetCutsThePayload := by
  intro s r ps _ hr hv
  refine ⟨((Ran.reset s hr).trans (Ran.after_reset s hv)).chars_nil, fun n hn => ?_⟩
  have hbegin := Ran.after_reset s (qs := ps.take n) fun q hq => hv q (List.mem_of_mem_take hq)
  have hsteps := ((Ran.reset s hr).trans hbegin).steps (ps.drop n)
  rw [List.append_assoc, List.take_append_drop, List.length_append, List.length_take, Nat.min_eq_left hn,
    Nat.add_comm] at hsteps
  exact ⟨_, hsteps, rfl, rfl, rfl, rfl⟩

/-- Settles O55: the boundary refuses every other first step, a second RESET finds the block reset, and the reset block
takes a command. -/
theorem oneResetStepStartsTheBlock : Obligations.OneResetStepStartsTheBlock := by
  refine ⟨fun s p hs hr => step_of_inputs_error (inputs_scheduled_before_reset hs hr []), fun s r q hr hq => ?_,
    fun s r p hr hpr hpv => ?_⟩
  · have htwo := ((Ran.reset s hr).trans (Ran.reset (resetBlock s) hq)).steps_nil
    exact htwo.trans (Ran.reset s hr).steps_nil.symm
  · have htwo := ((Ran.reset s hr).trans (Ran.accept (s := resetBlock s) ⟨rfl, rfl⟩ hpr hpv)).steps_nil
    exact ⟨_, htwo, rfl, rfl, rfl⟩

end Sys2Proof.Machine
